-- ==== Sys2Proof/Word.lean ====
section
/-! DEFINITION. The widths the spec names: a byte of data, and the 16-bit word of the command port and of the wide registers (00_scope.md R9, R11, R12). -/

namespace Sys2Proof

/-- An unsigned 8-bit value, the spec's `u8` (00_scope.md R12). -/
abbrev Byte := BitVec 8

/-- An unsigned 16-bit value, the spec's `u16`: a command word (30_encoding.md R90) or a 16-bit register. -/
abbrev Word := BitVec 16

/-- A 4-bit value: the `op` and `sel` fields (R90) and a phase register (10_state.md R24, R35). -/
abbrev Nibble := BitVec 4

end Sys2Proof
end

