-- ==== Sys2Proof/Config.lean ====
section
/-! DEFINITION. What an implementation fixes and the spec leaves open: the open parameters of 00_scope.md R10 (92_eei_decisions.md D20).
They are configuration, fixed for the life of the block, and no part of the state (10_state.md R20).
Each is opaque, so that a theorem holds whatever its value (log entry 6).
-/

namespace Sys2Proof.Config

/-- Which of the 254 bytes other than 0x01 and 0x02 is `SEND_REPORT_CODE`, counted upwards. OPEN (91_not_in_source.md N7): no value is known. -/
opaque sendReportIndex : Fin 254

/-- Which bytes `REPORTING_CMDS` holds beside the three that R10 puts there. OPEN (91_not_in_source.md N8). -/
opaque reportingOther : Byte → Bool

/-- Which bytes `SYSTEM_CMDS` holds beside the two that R10 puts there. OPEN (91_not_in_source.md N8). -/
opaque systemOther : Byte → Bool

end Sys2Proof.Config
end

