-- ==== Sys2Proof/Machine/State.lean ====
section
/-! DEFINITION. The state of the block as plain data: the three units of 10_state.md R20, and the host's end of the command port, which is the model's own (log entries 1 and 2). Also the reasons a step can stop, and the state after reset. -/

namespace Sys2Proof.Machine

/-- CKE, the standalone checksum engine (10_state.md §2). -/
structure Cke where
  /-- `CKE.A`, the accumulator `a` (R21). -/
  a : Byte
  /-- `CKE.B`, the accumulator `b` (R22). -/
  b : Byte
deriving DecidableEq, Repr

/-- RX, the deserializer (10_state.md §3). `DONE`, `ERR` and `STATUS` are views with no storage (R33, R34; Flags.lean). -/
structure Rx where
  /-- `RX.PHASE`: which wire byte RX consumes next (R24, codes R40). -/
  phase : Nibble
  /-- `RX.LEN`: the frame's length field (R25). -/
  len : Word
  /-- `RX.TYPE`: the raw message type code (R26). -/
  mtype : Byte
  /-- `RX.CLASS`: the raw message class code (R27). -/
  mclass : Byte
  /-- `RX.CMD`: the raw command code (R28). -/
  cmd : Byte
  /-- `RX.CKW`: the wire-declared checksum (R29). -/
  ckw : Word
  /-- `RX.A`, private checksum accumulator (R30). -/
  a : Byte
  /-- `RX.B`, private checksum accumulator (R30). -/
  b : Byte
  /-- `RX.PCNT`: payload bytes consumed in the current frame (R31). -/
  pcnt : Word
  /-- `MAGERR`: a magic byte was wrong (R32). -/
  magerr : Bool
  /-- `TYPERR`: the type byte is no MessageType code (R32). -/
  typerr : Bool
  /-- `CLSERR`: the class byte is no MessageClass code (R32). -/
  clserr : Bool
  /-- `CMDUNK`: the command is not in the class's command set (R32). -/
  cmdunk : Bool
  /-- `CKERR`: the wire checksum differs from the recomputed one (R32). -/
  ckerr : Bool
  /-- `OVR`: a byte was pushed in a terminal phase and dropped (R32). -/
  ovr : Bool
deriving DecidableEq, Repr

/-- TX, the serializer (10_state.md §4). `STATUS` is a view with no storage (R39; Flags.lean). -/
structure Tx where
  /-- `TX.PHASE`: which wire byte TX emits next (R35, codes R40). -/
  phase : Nibble
  /-- `TX.LEN`: the length of the frame to emit (R36). -/
  len : Word
  /-- `TX.TYPE` (R36). -/
  mtype : Byte
  /-- `TX.CLASS` (R36). -/
  mclass : Byte
  /-- `TX.CMD` (R36). -/
  cmd : Byte
  /-- `TX.A`, private checksum accumulator (R37). -/
  a : Byte
  /-- `TX.B`, private checksum accumulator (R37). -/
  b : Byte
  /-- `TX.PCNT`: payload bytes emitted in the current frame (R38). -/
  pcnt : Word
deriving DecidableEq, Repr

/-- The command status `st` of a response (30_encoding.md R91). There is no fourth: `11` is never returned. -/
inductive CmdStatus where
  /-- `00`: the command executed. -/
  | ok
  /-- `01`: the word encodes no command (60_exceptions.md R231). -/
  | illegal
  /-- `10`: the state of the unit does not permit the command (R232). -/
  | refused
deriving DecidableEq, Repr

/-- A response of the block, by its two fields (30_encoding.md R91); its 18-bit word is `Response.word` of Operands.lean. -/
structure Response where
  /-- The command status. -/
  st : CmdStatus
  /-- The command's result, `data[15:0]`. -/
  data : Word
deriving DecidableEq, Repr

/-- What the host does to the block: issue a command word on the port (00_scope.md R5), or the reset event (70_reset_and_hazards.md R260; log entry 5). -/
inductive HostEvent where
  /-- A 16-bit command word on the command port. -/
  | command (w : Word)
  /-- The reset event. -/
  | reset
deriving DecidableEq, Repr

/-- The host's end of the command port: the model's own bookkeeping of input and output, no storage of the block (log entries 1 and 2). -/
structure Port where
  /-- What the host will do, in the total order of 20_memory.md R70; the head is on the port now. -/
  events : List HostEvent
  /-- The responses returned so far, first one first (R70: one per command, in the order of the commands). -/
  responses : List Response
deriving DecidableEq, Repr

/-- The machine: the block's state, exactly the tuple `(CKE, RX, TX)` of R20, and the host's end of the command port. -/
structure State where
  /-- The standalone checksum engine. -/
  cke : Cke
  /-- The deserializer. -/
  rx : Rx
  /-- The serializer. -/
  tx : Tx
  /-- The host's end of the command port. -/
  port : Port
deriving DecidableEq, Repr

/-- Why a step stops with a fault. The spec has no fault at all (60_exceptions.md R230); these two stand for phase codes it says are never held (10_state.md R40, 93_implementation_defined.md S6), and no state reached from reset raises one (log entry 7). -/
inductive Fault where
  /-- Raised by RX_PUSH where `RX.PHASE` holds 12 to 15. SAFE: the machine stops where the spec gives no effect. -/
  | rxPhaseNeverHeld
  /-- Raised by TX_STEP where `TX.PHASE` holds 11 or 13 to 15. SAFE: the machine stops where the spec gives no effect. -/
  | txPhaseNeverHeld
deriving DecidableEq, Repr

/-- Why a step refuses to give an instruction a meaning. Not the block's own response status REFUSED, which is a value in a response (R232). -/
inductive Refusal where
  /-- Raised by an arm of `exec` whose instruction has no meaning yet. SAFE. No arm of this model raises it. -/
  | notModelled (mnemonic : String)
deriving DecidableEq, Repr

/-- CKE after reset (10_state.md R43). -/
def Cke.reset : Cke := { a := 0x00, b := 0x00 }

/-- RX after reset: phase 0, MAGIC0, armed (10_state.md R43). -/
def Rx.reset : Rx :=
  { phase := 0, len := 0x0000, mtype := 0x00, mclass := 0x00, cmd := 0x00, ckw := 0x0000, a := 0x00, b := 0x00,
    pcnt := 0x0000, magerr := false, typerr := false, clserr := false, cmdunk := false, ckerr := false, ovr := false }

/-- TX after reset: phase 12, IDLE (10_state.md R43). -/
def Tx.reset : Tx :=
  { phase := 12, len := 0x0000, mtype := 0x00, mclass := 0x00, cmd := 0x00, a := 0x00, b := 0x00, pcnt := 0x0000 }

/-- The machine right after reset (10_state.md R43, 70_reset_and_hazards.md R260). The host has issued nothing and nothing has been answered (log entries 1 and 2). -/
def State.reset : State :=
  { cke := Cke.reset, rx := Rx.reset, tx := Tx.reset, port := { events := [], responses := [] } }

end Sys2Proof.Machine
end

