-- ==== Sys2Proof/Machine/Operands.lean ====
section
/-! DEFINITION. How operands and results are put together: bytes of a 16-bit register, zero extension, the checksum packing and the response word (00_scope.md R12, 30_encoding.md R83, R91, R100). -/

namespace Sys2Proof.Machine

/-- `{hi, lo}`: the packing of two bytes, `hi` in bits 15:8 (R12). The checksum value is `{B, A}` (40_checksum.md R122). -/
def pack (hi lo : Byte) : Word := hi ++ lo

/-- `w[7:0]`. -/
def lowByte (w : Word) : Byte := w.extractLsb' 0 8

/-- `w[15:8]`. -/
def highByte (w : Word) : Byte := w.extractLsb' 8 8

/-- `w` with `w[7:0] <- x`. -/
def withLow (w : Word) (x : Byte) : Word := pack (highByte w) x

/-- `w` with `w[15:8] <- x`. -/
def withHigh (w : Word) (x : Byte) : Word := pack x (lowByte w)

/-- `zext_16(x)`: response data that holds an 8-bit register (R100). -/
def zext16 (x : Byte) : Word := x.setWidth 16

/-- The 2-bit code of a command status (R91). -/
def CmdStatus.code : CmdStatus → BitVec 2
  | .ok => 0b00
  | .illegal => 0b01
  | .refused => 0b10

/-- The 18-bit response word `{st[1:0], data[15:0]}` (R91). -/
def Response.word (r : Response) : BitVec 18 := r.st.code ++ r.data

/-- `respond(OK, data)` (00_scope.md R13). -/
def Response.ok (data : Word) : Response := { st := .ok, data := data }

/-- The response of a command that has no result: `OK 0x0000` (R91). -/
def Response.done : Response := Response.ok 0x0000

/-- `respond(ILLEGAL, 0x0000)` (R91, 60_exceptions.md R231). -/
def Response.illegal : Response := { st := .illegal, data := 0x0000 }

/-- `respond(REFUSED)`, with data 0x0000 (R91, 60_exceptions.md R232). -/
def Response.refused : Response := { st := .refused, data := 0x0000 }

end Sys2Proof.Machine
end

