-- ==== Sys2Proof/Machine/Phase.lean ====
section
/-! DEFINITION. The phase codes RX and TX share (10_state.md R40). -/

namespace Sys2Proof.Machine

/-- The phases by name (R40). For codes 0 to 9 the phase names a byte of the wire frame. -/
inductive Phase where
  | magic0 | magic1 | lenLo | lenHi | type | class | cmd | payload | ckLo | ckHi
  /-- Frame complete. -/
  | done
  /-- Bad magic, RX stopped; RX only. -/
  | error
  /-- Nothing to emit; TX only. -/
  | idle
deriving DecidableEq, Repr

/-- The 4-bit code of a phase (R40). -/
def Phase.code : Phase → Nibble
  | .magic0 => 0
  | .magic1 => 1
  | .lenLo => 2
  | .lenHi => 3
  | .type => 4
  | .class => 5
  | .cmd => 6
  | .payload => 7
  | .ckLo => 8
  | .ckHi => 9
  | .done => 10
  | .error => 11
  | .idle => 12

/-- The phase a 4-bit code names; 13 to 15 name none (R40). -/
def phaseOf (c : Nibble) : Option Phase :=
  match c.toNat with
  | 0 => some .magic0
  | 1 => some .magic1
  | 2 => some .lenLo
  | 3 => some .lenHi
  | 4 => some .type
  | 5 => some .class
  | 6 => some .cmd
  | 7 => some .payload
  | 8 => some .ckLo
  | 9 => some .ckHi
  | 10 => some .done
  | 11 => some .error
  | 12 => some .idle
  | _ => none

end Sys2Proof.Machine
end

