-- ==== Sys2Proof/Machine/Flags.lean ====
section
/-! DEFINITION. Every flag computation: the header code tests, the derived bits of RX and TX, their STATUS views, and the words for how a received frame ended (00_scope.md R10, R17; 10_state.md R33, R34, R39; 30_encoding.md R84 to R86). -/

namespace Sys2Proof.Machine

/-- The byte is a MessageType code: 0x00 REQUEST or 0x0F RESPONSE (R84). -/
def typeOk (x : Byte) : Bool := x == 0x00 || x == 0x0F

/-- The byte is a MessageClass code: 0x00 to 0x08 (R85). -/
def classOk (x : Byte) : Bool := decide (x.toNat ≤ 0x08)

/-- `SEND_REPORT_CODE`, an open parameter: some byte other than 0x01 and 0x02 (R10; log entry 6). -/
def sendReportCode : Byte :=
  let n := Config.sendReportIndex.val
  BitVec.ofNat 8 (if n = 0 then 0 else n + 2)

/-- Membership of `REPORTING_CMDS`, an open parameter that holds 0x01, 0x02 and `SEND_REPORT_CODE` (R10). -/
def reportingCmds (k : Byte) : Bool :=
  k == 0x01 || k == 0x02 || k == sendReportCode || Config.reportingOther k

/-- Membership of `SYSTEM_CMDS`, an open parameter that holds 0x00 and 0x01 (R10). -/
def systemCmds (k : Byte) : Bool :=
  k == 0x00 || k == 0x01 || Config.systemOther k

/-- `known(c, k)`: the command `k` belongs to the command set of class `c`; only REPORTING (0x00) and SYSTEM (0x04) have one (R86). -/
def known (c k : Byte) : Bool :=
  (c == 0x00 && reportingCmds k) || (c == 0x04 && systemCmds k)

/-- `RX.DONE` (10_state.md R34). -/
def Rx.done (r : Rx) : Bool := r.phase == Phase.done.code

/-- `RX.ERR` (R34): `CMDUNK` and `OVR` are no part of it. -/
def Rx.err (r : Rx) : Bool := r.magerr || r.typerr || r.clserr || r.ckerr

/-- A flag as a 1-bit value. -/
def bit (f : Bool) : BitVec 1 := BitVec.ofBool f

/-- `RX.STATUS` (R33), bit 15 first. -/
def Rx.status (r : Rx) : Word :=
  0#4 ++ r.phase ++ bit r.err ++ bit r.ovr ++ bit r.ckerr ++ bit r.cmdunk ++ bit r.clserr ++ bit r.typerr
    ++ bit r.magerr ++ bit r.done

/-- RX accepted the frame: DONE with no error (00_scope.md R17). -/
def Rx.accepted (r : Rx) : Bool := r.done && !r.err

/-- RX rejected the frame: DONE with an error, or stopped in ERROR (R17). -/
def Rx.rejected (r : Rx) : Bool := (r.done && r.err) || r.phase == Phase.error.code

/-- The frame is incomplete: RX is in any other phase (R17). -/
def Rx.incomplete (r : Rx) : Bool := !(r.done || r.phase == Phase.error.code)

/-- TX is busy: it is emitting a frame (10_state.md R35, R39). -/
def Tx.busy (t : Tx) : Bool := decide (t.phase.toNat ≤ 9)

/-- `TX.STATUS` bit CODEOK: the header is well-formed (R39, 42_serializer.md R180). -/
def Tx.codeOk (t : Tx) : Bool := typeOk t.mtype && classOk t.mclass

/-- `TX.STATUS` bit DONE (R39). -/
def Tx.done (t : Tx) : Bool := t.phase == Phase.done.code

/-- `TX.STATUS` (R39), bit 15 first. -/
def Tx.status (t : Tx) : Word :=
  0#4 ++ t.phase ++ 0#5 ++ bit t.codeOk ++ bit t.busy ++ bit t.done

end Sys2Proof.Machine
end

