-- ==== Sys2Proof/Machine/Ops.lean ====
section
/-! DEFINITION. The named operations every meaning is written over: the checksum step, the command port's answer, reset, and the per-byte work of RX and TX.
The block takes no exception and returns from none (60_exceptions.md R230): what stands in the place of exception entry is ONE answer for a word that encodes no command and ONE for a command the state does not permit, neither with any effect (R231, R232, R233).
-/

namespace Sys2Proof.Machine

/-! ### The checksum step -/

/-- `ckstep(A, B, x) = (A', B')`: `A' = (A + x) mod 255`, then `B' = (B + A') mod 255` (40_checksum.md R121). -/
def ckstep (a b x : Byte) : Byte × Byte :=
  let a' : Byte := BitVec.ofNat 8 ((a.toNat + x.toNat) % 255)
  (a', BitVec.ofNat 8 ((b.toNat + a'.toNat) % 255))

/-- Fold a byte into CKE's accumulators. -/
def Cke.fold (c : Cke) (x : Byte) : Cke :=
  { a := (ckstep c.a c.b x).1, b := (ckstep c.a c.b x).2 }

/-- CKE's checksum value `{CKE.B, CKE.A}` (R122). -/
def Cke.sum (c : Cke) : Word := pack c.b c.a

/-- Fold a body byte into RX's private accumulators (10_state.md R30). -/
def Rx.fold (r : Rx) (x : Byte) : Rx :=
  { r with a := (ckstep r.a r.b x).1, b := (ckstep r.a r.b x).2 }

/-- RX's recomputed checksum `{RX.B, RX.A}` (R30). -/
def Rx.sum (r : Rx) : Word := pack r.b r.a

/-- Fold an emitted body byte into TX's private accumulators (10_state.md R37). -/
def Tx.fold (t : Tx) (x : Byte) : Tx :=
  { t with a := (ckstep t.a t.b x).1, b := (ckstep t.a t.b x).2 }

/-- TX's checksum so far, `{TX.B, TX.A}` (30_encoding.md R95). -/
def Tx.sum (t : Tx) : Word := pack t.b t.a

/-! ### The state's three units and its port -/

/-- Replace CKE. -/
def State.setCke (s : State) (c : Cke) : State := { s with cke := c }

/-- Replace RX. -/
def State.setRx (s : State) (r : Rx) : State := { s with rx := r }

/-- Replace TX. -/
def State.setTx (s : State) (t : Tx) : State := { s with tx := t }

/-- Complete the transaction on the port: the command there is taken off and its one response returned, after those before it (20_memory.md R68, R70; log entry 4). -/
def Port.answer (p : Port) (r : Response) : Port :=
  { events := p.events.tail, responses := p.responses ++ [r] }

/-- Answer the command on the port. -/
def State.answer (s : State) (r : Response) : State := { s with port := s.port.answer r }

/-- The outcome of a command that executed: the next state, with its response returned. -/
def answerOk (s : State) (data : Word) : Host.Outcome State Fault Refusal := .next (s.answer (.ok data))

/-- The outcome of a word that encodes no command: ILLEGAL, and no state is read or written (43_control.md R221, 60_exceptions.md R231). -/
def answerIllegal (s : State) : Host.Outcome State Fault Refusal := .next (s.answer .illegal)

/-- The outcome of a command the state does not permit: REFUSED, with no effect (60_exceptions.md R232). -/
def answerRefused (s : State) : Host.Outcome State Fault Refusal := .next (s.answer .refused)

/-- The reset event: every state element takes its reset value, all at once, whatever the state was (70_reset_and_hazards.md R260).
It is no command and has no response; the responses already returned are the host's and stay (log entry 5). -/
def State.resetEvent (s : State) : State :=
  { cke := Cke.reset, rx := Rx.reset, tx := Tx.reset, port := { s.port with events := s.port.events.tail } }

/-! ### RX, one wire byte -/

/-- Move RX to a phase. -/
def Rx.goto (r : Rx) (p : Phase) : Rx := { r with phase := p.code }

/-- A magic byte: the right one moves RX on, a wrong one stops it in ERROR (41_deserializer.md R144, R145). -/
def Rx.magic (r : Rx) (want : Byte) (next : Phase) (x : Byte) : Rx :=
  if x == want then r.goto next else { r with magerr := true }.goto .error

/-- The type byte (R144 case 4, R147). -/
def Rx.takeType (r : Rx) (x : Byte) : Rx :=
  { (r.fold x) with mtype := x, typerr := r.typerr || !typeOk x }.goto .class

/-- The class byte (R144 case 5, R147). -/
def Rx.takeClass (r : Rx) (x : Byte) : Rx :=
  { (r.fold x) with mclass := x, clserr := r.clserr || !classOk x }.goto .cmd

/-- The command byte; `CMDUNK` uses the class latched in the phase before, and a frame of length 0 has no PAYLOAD phase (R144 case 6, R146, R148). -/
def Rx.takeCmd (r : Rx) (x : Byte) : Rx :=
  { (r.fold x) with cmd := x, cmdunk := r.cmdunk || !known r.mclass x }.goto (if r.len == 0 then .ckLo else .payload)

/-- A payload byte; the last one leaves PAYLOAD (R144 case 7). -/
def Rx.takePayload (r : Rx) (x : Byte) : Rx :=
  let n := r.pcnt + 1
  { (r.fold x) with pcnt := n }.goto (if n == r.len then .ckLo else .payload)

/-- The last byte of the frame: the wire checksum is completed and compared with the recomputed one, and RX is DONE whatever the comparison gives (R144 case 9, R149). -/
def Rx.takeCkHi (r : Rx) (x : Byte) : Rx :=
  { r with ckw := withHigh r.ckw x, ckerr := r.ckerr || pack x (lowByte r.ckw) != r.sum }.goto .done

/-- RX_PUSH's case on the phase (R144): RX after it consumed the wire byte `x`; `none` for a phase RX never holds (log entry 7). -/
def Rx.push (r : Rx) (x : Byte) : Option Rx :=
  match phaseOf r.phase with
  | some .magic0 => some (r.magic 0x4D .magic1 x)
  | some .magic1 => some (r.magic 0x45 .lenLo x)
  | some .lenLo => some ({ r with len := withLow r.len x }.goto .lenHi)
  | some .lenHi => some ({ r with len := withHigh r.len x }.goto .type)
  | some .type => some (r.takeType x)
  | some .class => some (r.takeClass x)
  | some .cmd => some (r.takeCmd x)
  | some .payload => some (r.takePayload x)
  | some .ckLo => some ({ r with ckw := withLow r.ckw x }.goto .ckHi)
  | some .ckHi => some (r.takeCkHi x)
  | some .done => some { r with ovr := true }
  | some .error => some { r with ovr := true }
  | some .idle => none
  | none => none

/-- The data of RX_PUSH's response: `{q[3:0], RX.STATUS[11:0]}`, `q` the phase the byte was consumed in and STATUS as it is after the command (R156). -/
def pushData (q : Nibble) (after : Rx) : Word := q ++ after.status.extractLsb' 0 12

/-! ### TX, one wire byte -/

/-- Move TX to a phase. -/
def Tx.goto (t : Tx) (p : Phase) : Tx := { t with phase := p.code }

/-- The payload byte TX emits; the step that brings `TX.PCNT` to `TX.LEN` leaves PAYLOAD (42_serializer.md R185 case 7). -/
def Tx.emitPayload (t : Tx) (x : Byte) : Tx :=
  let n := t.pcnt + 1
  { (t.fold x) with pcnt := n }.goto (if n == t.len then .ckLo else .payload)

/-- What TX_STEP finds to do in its phase. -/
inductive Emission where
  /-- The wire byte emitted and TX after it. -/
  | byte (b : Byte) (after : Tx)
  /-- IDLE or DONE: nothing to emit. -/
  | nothing
  /-- A phase TX never holds (log entry 7). -/
  | neverHeld
deriving DecidableEq, Repr

/-- TX_STEP's case on the phase (R185). The host's byte `x` is used in PAYLOAD only. -/
def Tx.emit (t : Tx) (x : Byte) : Emission :=
  match phaseOf t.phase with
  | some .magic0 => .byte 0x4D (t.goto .magic1)
  | some .magic1 => .byte 0x45 (t.goto .lenLo)
  | some .lenLo => .byte (lowByte t.len) (t.goto .lenHi)
  | some .lenHi => .byte (highByte t.len) (t.goto .type)
  | some .type => .byte t.mtype ((t.fold t.mtype).goto .class)
  | some .class => .byte t.mclass ((t.fold t.mclass).goto .cmd)
  | some .cmd => .byte t.cmd ((t.fold t.cmd).goto (if t.len == 0 then .ckLo else .payload))
  | some .payload => .byte x (t.emitPayload x)
  | some .ckLo => .byte t.a (t.goto .ckHi)
  | some .ckHi => .byte t.b (t.goto .done)
  | some .done => .nothing
  | some .idle => .nothing
  | some .error => .neverHeld
  | none => .neverHeld

/-- The data of TX_STEP's response: `{0x0[3:0], q[3:0], b[7:0]}` (R185). -/
def stepData (q : Nibble) (b : Byte) : Word := 0#4 ++ q ++ b

/-- TX as TX_GO leaves it: a frame started with fresh accumulators and count, its header kept (R184). -/
def Tx.start (t : Tx) : Tx := { t with phase := Phase.magic0.code, a := 0x00, b := 0x00, pcnt := 0x0000 }

/-- TX_SET's shape (R183): REFUSED while TX is busy, else the one register byte is written and nothing else: in DONE `TX.PCNT` keeps the count of the frame just sent (log entry 8). -/
def txWrite (set : Tx → Tx) (s : State) : Host.Outcome State Fault Refusal :=
  if s.tx.busy then answerRefused s else answerOk (s.setTx (set s.tx)) 0x0000

end Sys2Proof.Machine
end

