-- ==== Sys2Proof/Machine/Checksum.lean ====
section
/-! DEFINITION. The commands of the standalone checksum engine CKE (40_checksum.md §2). -/

namespace Sys2Proof.Machine

/-- CK_CLR (R124): clear the standalone accumulators. -/
def execCkClr (s : State) : Host.Outcome State Fault Refusal := answerOk (s.setCke { a := 0x00, b := 0x00 }) 0x0000

/-- CK_UPD x (R125): fold one byte in, and answer the running checksum. -/
def execCkUpd (x : Byte) (s : State) : Host.Outcome State Fault Refusal :=
  answerOk (s.setCke (s.cke.fold x)) (s.cke.fold x).sum

/-- CK_RD (R126): read the standalone checksum. -/
def execCkRd (s : State) : Host.Outcome State Fault Refusal := answerOk s s.cke.sum

end Sys2Proof.Machine
end

