-- ==== Sys2Proof/Machine/Control.lean ====
section
/-! DEFINITION. The command of no unit, and the reserved words (43_control.md). -/

namespace Sys2Proof.Machine

/-- NOP (R220): `OK 0x0000`, no state written. -/
def execNop (s : State) : Host.Outcome State Fault Refusal := answerOk s 0x0000

/-- A word with a reserved `op` (R221): ILLEGAL, whatever its other bits. -/
def execReserved (_low : BitVec 14) (s : State) : Host.Outcome State Fault Refusal := answerIllegal s

end Sys2Proof.Machine
end

