-- ==== Sys2Proof/Machine/Deserializer.lean ====
section
/-! DEFINITION. The commands of the frame deserializer RX (41_deserializer.md §2). -/

namespace Sys2Proof.Machine

/-- RX_RST (R143): arm RX for a new frame; every RX field takes its reset value. -/
def execRxRst (s : State) : Host.Outcome State Fault Refusal := answerOk (s.setRx Rx.reset) 0x0000

/-- RX_PUSH x (R144, R156): consume one wire byte. OK in every phase RX holds; the fault is log entry 7. -/
def execRxPush (x : Byte) (s : State) : Host.Outcome State Fault Refusal :=
  match s.rx.push x with
  | some r => answerOk (s.setRx r) (pushData s.rx.phase r)
  | none => .fault .rxPhaseNeverHeld

/-- RX_RD STATUS (R157). -/
def execRxRdStatus (s : State) : Host.Outcome State Fault Refusal := answerOk s s.rx.status

/-- RX_RD LEN (R157). -/
def execRxRdLen (s : State) : Host.Outcome State Fault Refusal := answerOk s s.rx.len

/-- RX_RD TYPE (R157). -/
def execRxRdType (s : State) : Host.Outcome State Fault Refusal := answerOk s (zext16 s.rx.mtype)

/-- RX_RD CLASS (R157). -/
def execRxRdClass (s : State) : Host.Outcome State Fault Refusal := answerOk s (zext16 s.rx.mclass)

/-- RX_RD CMD (R157). -/
def execRxRdCmd (s : State) : Host.Outcome State Fault Refusal := answerOk s (zext16 s.rx.cmd)

/-- RX_RD CKW (R157): the wire checksum. -/
def execRxRdCkw (s : State) : Host.Outcome State Fault Refusal := answerOk s s.rx.ckw

/-- RX_RD CKC (R157): the recomputed checksum. -/
def execRxRdCkc (s : State) : Host.Outcome State Fault Refusal := answerOk s s.rx.sum

/-- RX_RD PCNT (R157). -/
def execRxRdPcnt (s : State) : Host.Outcome State Fault Refusal := answerOk s s.rx.pcnt

end Sys2Proof.Machine
end

