-- ==== Sys2Proof/Machine/Serializer.lean ====
section
/-! DEFINITION. The commands of the frame serializer TX (42_serializer.md §2). -/

namespace Sys2Proof.Machine

/-- TX_RST (R182): abort any frame and clear TX; every TX field takes its reset value. -/
def execTxRst (s : State) : Host.Outcome State Fault Refusal := answerOk (s.setTx Tx.reset) 0x0000

/-- TX_SET LEN_LO, v (R183). -/
def execTxSetLenLo (v : Byte) (s : State) : Host.Outcome State Fault Refusal :=
  txWrite (fun t => { t with len := withLow t.len v }) s

/-- TX_SET TYPE, v (R183): any byte may be written. -/
def execTxSetType (v : Byte) (s : State) : Host.Outcome State Fault Refusal :=
  txWrite (fun t => { t with mtype := v }) s

/-- TX_SET CLASS, v (R183): any byte may be written. -/
def execTxSetClass (v : Byte) (s : State) : Host.Outcome State Fault Refusal :=
  txWrite (fun t => { t with mclass := v }) s

/-- TX_SET CMD, v (R183). -/
def execTxSetCmd (v : Byte) (s : State) : Host.Outcome State Fault Refusal :=
  txWrite (fun t => { t with cmd := v }) s

/-- TX_SET LEN_HI, v (R183). -/
def execTxSetLenHi (v : Byte) (s : State) : Host.Outcome State Fault Refusal :=
  txWrite (fun t => { t with len := withHigh t.len v }) s

/-- TX_GO (R184): start a frame from the header registers. REFUSED while busy, then REFUSED for a header that is not well-formed (R233). -/
def execTxGo (s : State) : Host.Outcome State Fault Refusal :=
  if s.tx.busy then answerRefused s
  else if !s.tx.codeOk then answerRefused s
  else answerOk (s.setTx s.tx.start) 0x0000

/-- TX_STEP x (R185): emit the next wire byte. REFUSED in IDLE and DONE; the fault is log entry 7. -/
def execTxStep (x : Byte) (s : State) : Host.Outcome State Fault Refusal :=
  match s.tx.emit x with
  | .byte b t => answerOk (s.setTx t) (stepData s.tx.phase b)
  | .nothing => answerRefused s
  | .neverHeld => .fault .txPhaseNeverHeld

/-- TX_RD STATUS (R186). -/
def execTxRdStatus (s : State) : Host.Outcome State Fault Refusal := answerOk s s.tx.status

/-- TX_RD LEN (R186). -/
def execTxRdLen (s : State) : Host.Outcome State Fault Refusal := answerOk s s.tx.len

/-- TX_RD TYPE (R186). -/
def execTxRdType (s : State) : Host.Outcome State Fault Refusal := answerOk s (zext16 s.tx.mtype)

/-- TX_RD CLASS (R186). -/
def execTxRdClass (s : State) : Host.Outcome State Fault Refusal := answerOk s (zext16 s.tx.mclass)

/-- TX_RD CMD (R186). -/
def execTxRdCmd (s : State) : Host.Outcome State Fault Refusal := answerOk s (zext16 s.tx.cmd)

/-- TX_RD CK (R186): the checksum accumulated so far. -/
def execTxRdCk (s : State) : Host.Outcome State Fault Refusal := answerOk s s.tx.sum

/-- TX_RD PCNT (R186). -/
def execTxRdPcnt (s : State) : Host.Outcome State Fault Refusal := answerOk s s.tx.pcnt

end Sys2Proof.Machine
end

