-- ==== Sys2Proof/Syntax.lean ====
section
/-! DEFINITION. The command set ME221-FE, revision 1 (00_scope.md R3): one constructor for each row of opcode_table.json.
An operand has exactly the width of its field, so no term of `Instr` is ill-formed. -/

namespace Sys2Proof

/-- A command of the block (30_encoding.md R92), one constructor per row of the opcode table. -/
inductive Instr where
  /-- NOP (43_control.md R220). -/
  | nop
  /-- CK_CLR (40_checksum.md R124). -/
  | ckClr
  /-- CK_UPD x (R125). -/
  | ckUpd (x : Byte)
  /-- CK_RD (R126). -/
  | ckRd
  /-- RX_RST (41_deserializer.md R143). -/
  | rxRst
  /-- RX_PUSH x (R144). -/
  | rxPush (x : Byte)
  /-- RX_RD STATUS, `sel` 0 (R157, 30_encoding.md R94). -/
  | rxRdStatus
  /-- RX_RD LEN, `sel` 1. -/
  | rxRdLen
  /-- RX_RD TYPE, `sel` 2. -/
  | rxRdType
  /-- RX_RD CLASS, `sel` 3. -/
  | rxRdClass
  /-- RX_RD CMD, `sel` 4. -/
  | rxRdCmd
  /-- RX_RD CKW, `sel` 5. -/
  | rxRdCkw
  /-- RX_RD CKC, `sel` 6. -/
  | rxRdCkc
  /-- RX_RD PCNT, `sel` 7. -/
  | rxRdPcnt
  /-- TX_SET LEN_LO, v: `sel` 1 (42_serializer.md R183, 30_encoding.md R96). -/
  | txSetLenLo (v : Byte)
  /-- TX_SET TYPE, v: `sel` 2. -/
  | txSetType (v : Byte)
  /-- TX_SET CLASS, v: `sel` 3. -/
  | txSetClass (v : Byte)
  /-- TX_SET CMD, v: `sel` 4. -/
  | txSetCmd (v : Byte)
  /-- TX_SET LEN_HI, v: `sel` 9. -/
  | txSetLenHi (v : Byte)
  /-- TX_GO (42_serializer.md R184). -/
  | txGo
  /-- TX_STEP x (R185). -/
  | txStep (x : Byte)
  /-- TX_RD STATUS, `sel` 0 (R186, 30_encoding.md R95). -/
  | txRdStatus
  /-- TX_RD LEN, `sel` 1. -/
  | txRdLen
  /-- TX_RD TYPE, `sel` 2. -/
  | txRdType
  /-- TX_RD CLASS, `sel` 3. -/
  | txRdClass
  /-- TX_RD CMD, `sel` 4. -/
  | txRdCmd
  /-- TX_RD CK, `sel` 5. -/
  | txRdCk
  /-- TX_RD PCNT, `sel` 6. -/
  | txRdPcnt
  /-- TX_RST (42_serializer.md R182). -/
  | txRst
  /-- A word whose `op` is 0xC to 0xF, with its other 14 bits (43_control.md R221): the table's "(reserved)" row. -/
  | reserved (low : BitVec 14)
deriving DecidableEq, Repr

end Sys2Proof
end

