-- ==== Sys2Proof/Machine/Dispatch.lean ====
section
/-! DEFINITION. The meaning of every instruction: one arm per row of opcode_table.json. -/

namespace Sys2Proof.Machine

def exec (i : Instr) (s : State) : Host.Outcome State Fault Refusal :=
  match i with
  | .nop => Sys2Proof.Machine.execNop s
  | .ckClr => Sys2Proof.Machine.execCkClr s
  | .ckUpd x => Sys2Proof.Machine.execCkUpd x s
  | .ckRd => Sys2Proof.Machine.execCkRd s
  | .rxRst => Sys2Proof.Machine.execRxRst s
  | .rxPush x => Sys2Proof.Machine.execRxPush x s
  | .rxRdStatus => Sys2Proof.Machine.execRxRdStatus s
  | .rxRdLen => Sys2Proof.Machine.execRxRdLen s
  | .rxRdType => Sys2Proof.Machine.execRxRdType s
  | .rxRdClass => Sys2Proof.Machine.execRxRdClass s
  | .rxRdCmd => Sys2Proof.Machine.execRxRdCmd s
  | .rxRdCkw => Sys2Proof.Machine.execRxRdCkw s
  | .rxRdCkc => Sys2Proof.Machine.execRxRdCkc s
  | .rxRdPcnt => Sys2Proof.Machine.execRxRdPcnt s
  | .txSetLenLo v => Sys2Proof.Machine.execTxSetLenLo v s
  | .txSetType v => Sys2Proof.Machine.execTxSetType v s
  | .txSetClass v => Sys2Proof.Machine.execTxSetClass v s
  | .txSetCmd v => Sys2Proof.Machine.execTxSetCmd v s
  | .txSetLenHi v => Sys2Proof.Machine.execTxSetLenHi v s
  | .txGo => Sys2Proof.Machine.execTxGo s
  | .txStep x => Sys2Proof.Machine.execTxStep x s
  | .txRdStatus => Sys2Proof.Machine.execTxRdStatus s
  | .txRdLen => Sys2Proof.Machine.execTxRdLen s
  | .txRdType => Sys2Proof.Machine.execTxRdType s
  | .txRdClass => Sys2Proof.Machine.execTxRdClass s
  | .txRdCmd => Sys2Proof.Machine.execTxRdCmd s
  | .txRdCk => Sys2Proof.Machine.execTxRdCk s
  | .txRdPcnt => Sys2Proof.Machine.execTxRdPcnt s
  | .txRst => Sys2Proof.Machine.execTxRst s
  | .reserved low => Sys2Proof.Machine.execReserved low s

end Sys2Proof.Machine
end

