-- ==== Sys2Proof/Decode.lean ====
section
/-! DEFINITION. The command word's decoder, total on every 16-bit word (30_encoding.md R90 to R100), and the encoder.
The word is a number on the command port and has no byte order (20_memory.md R66), so there are no bytes to lay out.
-/

namespace Sys2Proof

/-- Field `op`, bits 15:12 (R90). -/
def opField (w : Word) : Nibble := w.extractLsb' 12 4

/-- Field `sel`, bits 11:8 (R90). -/
def selField (w : Word) : Nibble := w.extractLsb' 8 4

/-- Field `data`, bits 7:0 (R90). -/
def dataField (w : Word) : Byte := w.extractLsb' 0 8

/-- The command word `{op, sel, data}` (R90). -/
def mkWord (op sel : Nibble) (data : Byte) : Word := op ++ sel ++ data

/-- Why a word of a defined `op` encodes no command (R93, R97). The block answers each ILLEGAL (R221, R231). -/
inductive Reject where
  /-- A `sel` field that R92 marks "—" is not 0. -/
  | selNotZero
  /-- A `data` field that R92 marks "—" is not 0. -/
  | dataNotZero
  /-- A selector that R94, R95 or R96 reserves. -/
  | selReserved
deriving DecidableEq, Repr

/-- A command with no operand: `sel` and `data` must be 0. -/
def decodeNone (sel : Nibble) (data : Byte) (i : Instr) : Except Reject Instr :=
  if sel ≠ 0 then .error .selNotZero else if data ≠ 0 then .error .dataNotZero else .ok i

/-- A command with a byte operand in `data`: `sel` must be 0. -/
def decodeByte (sel : Nibble) (i : Instr) : Except Reject Instr :=
  if sel ≠ 0 then .error .selNotZero else .ok i

/-- The register an RX_RD reads (R94). -/
def rxRdSel (sel : Nibble) : Option Instr :=
  match sel.toNat with
  | 0 => some .rxRdStatus
  | 1 => some .rxRdLen
  | 2 => some .rxRdType
  | 3 => some .rxRdClass
  | 4 => some .rxRdCmd
  | 5 => some .rxRdCkw
  | 6 => some .rxRdCkc
  | 7 => some .rxRdPcnt
  | _ => none

/-- The register a TX_RD reads (R95). -/
def txRdSel (sel : Nibble) : Option Instr :=
  match sel.toNat with
  | 0 => some .txRdStatus
  | 1 => some .txRdLen
  | 2 => some .txRdType
  | 3 => some .txRdClass
  | 4 => some .txRdCmd
  | 5 => some .txRdCk
  | 6 => some .txRdPcnt
  | _ => none

/-- The register byte a TX_SET writes (R96). -/
def txSetSel (sel : Nibble) (v : Byte) : Option Instr :=
  match sel.toNat with
  | 1 => some (.txSetLenLo v)
  | 2 => some (.txSetType v)
  | 3 => some (.txSetClass v)
  | 4 => some (.txSetCmd v)
  | 9 => some (.txSetLenHi v)
  | _ => none

/-- A command whose selector is its operand: a reserved selector is rejected. -/
def decodeSel (found : Option Instr) : Except Reject Instr :=
  match found with
  | some i => .ok i
  | none => .error .selReserved

/-- A register read: a reserved selector is rejected, and `data` must be 0. -/
def decodeRead (found : Option Instr) (data : Byte) : Except Reject Instr :=
  if data ≠ 0 then .error .dataNotZero else decodeSel found

/-- The command a word encodes, or why it encodes none (R92, R97, R99). An `op` of 0xC to 0xF is the table's "(reserved)" row (R221). -/
def decode (w : Word) : Except Reject Instr :=
  match (opField w).toNat with
  | 0x0 => decodeNone (selField w) (dataField w) .nop
  | 0x1 => decodeNone (selField w) (dataField w) .ckClr
  | 0x2 => decodeByte (selField w) (.ckUpd (dataField w))
  | 0x3 => decodeNone (selField w) (dataField w) .ckRd
  | 0x4 => decodeNone (selField w) (dataField w) .rxRst
  | 0x5 => decodeByte (selField w) (.rxPush (dataField w))
  | 0x6 => decodeRead (rxRdSel (selField w)) (dataField w)
  | 0x7 => decodeSel (txSetSel (selField w) (dataField w))
  | 0x8 => decodeNone (selField w) (dataField w) .txGo
  | 0x9 => decodeByte (selField w) (.txStep (dataField w))
  | 0xA => decodeRead (txRdSel (selField w)) (dataField w)
  | 0xB => decodeNone (selField w) (dataField w) .txRst
  | _ => .ok (.reserved (w.extractLsb' 0 14))

/-- The word that encodes an instruction (R90, R92, R94, R95, R96). For `reserved` it is the word itself, bits 15:14 set. -/
def encode : Instr → Word
  | .nop => mkWord 0x0 0 0
  | .ckClr => mkWord 0x1 0 0
  | .ckUpd x => mkWord 0x2 0 x
  | .ckRd => mkWord 0x3 0 0
  | .rxRst => mkWord 0x4 0 0
  | .rxPush x => mkWord 0x5 0 x
  | .rxRdStatus => mkWord 0x6 0 0
  | .rxRdLen => mkWord 0x6 1 0
  | .rxRdType => mkWord 0x6 2 0
  | .rxRdClass => mkWord 0x6 3 0
  | .rxRdCmd => mkWord 0x6 4 0
  | .rxRdCkw => mkWord 0x6 5 0
  | .rxRdCkc => mkWord 0x6 6 0
  | .rxRdPcnt => mkWord 0x6 7 0
  | .txSetLenLo v => mkWord 0x7 1 v
  | .txSetType v => mkWord 0x7 2 v
  | .txSetClass v => mkWord 0x7 3 v
  | .txSetCmd v => mkWord 0x7 4 v
  | .txSetLenHi v => mkWord 0x7 9 v
  | .txGo => mkWord 0x8 0 0
  | .txStep x => mkWord 0x9 0 x
  | .txRdStatus => mkWord 0xA 0 0
  | .txRdLen => mkWord 0xA 1 0
  | .txRdType => mkWord 0xA 2 0
  | .txRdClass => mkWord 0xA 3 0
  | .txRdCmd => mkWord 0xA 4 0
  | .txRdCk => mkWord 0xA 5 0
  | .txRdPcnt => mkWord 0xA 6 0
  | .txRst => mkWord 0xB 0 0
  | .reserved low => (0b11#2) ++ low

/-- The command word whose low `nbits` bits are those of `w` and whose other bits are 0. -/
def tableWord (nbits w : Nat) : Word := BitVec.ofNat 16 (w % 2 ^ min nbits 16)

/-- The instruction the decoder reads from a table word, numbered as the opcode table numbers its bits: a command is one 16-bit word (log entry 10). -/
def decodeTableWord (nbits w : Nat) : Option Instr :=
  match decode (tableWord nbits w) with
  | .ok i => some i
  | .error _ => none

end Sys2Proof
end

