-- ==== Sys2Proof/Machine/Fetch.lean ====
section
/-! DEFINITION. What the block finds on its command port when it steps. The block fetches no program (20_memory.md R73): the host issues one command at a time, or the reset event occurs. -/

namespace Sys2Proof.Machine

/-- What is on the port. -/
inductive Fetched where
  /-- Nothing: the block is idle between commands (60_exceptions.md R249). -/
  | idle
  /-- The reset event (70_reset_and_hazards.md R260). -/
  | reset
  /-- A command word that encodes an instruction. -/
  | instr (i : Instr)
  /-- A command word that encodes none (30_encoding.md R97), with the reason. -/
  | illegal (why : Reject)
deriving DecidableEq, Repr

/-- Read a command word: decoding is the first thing done with it, whatever the state (60_exceptions.md R233). -/
def fetchWord (w : Word) : Fetched :=
  match decode w with
  | .ok i => .instr i
  | .error why => .illegal why

/-- What the head of the host's events puts on the port. The event stays there until it is answered (log entry 4). -/
def fetch (s : State) : Fetched :=
  match s.port.events with
  | [] => .idle
  | .reset :: _ => .reset
  | .command w :: _ => fetchWord w

/-- Put a command word on the port, ahead of whatever the host will do after it. -/
def State.placeCommand (s : State) (w : Word) : State :=
  { s with port := { s.port with events := .command w :: s.port.events } }

end Sys2Proof.Machine
end

