-- ==== Sys2Proof/Machine/Step.lean ====
section
/-! DEFINITION. One step of the block: one event of the host's, one atomic command with one response (00_scope.md R5, 20_memory.md R68, R70). -/

namespace Sys2Proof.Machine

/-- One step: the command on the port is executed, or answered ILLEGAL; reset is taken; with nothing on the port the block holds its state (60_exceptions.md R249, log entry 3). -/
def step (s : State) : Host.Outcome State Fault Refusal :=
  match fetch s with
  | .idle => .next s
  | .reset => .next s.resetEvent
  | .instr i => exec i s
  | .illegal _ => answerIllegal s

/-- `s` with a table word put on the command port, so that the next step takes exactly it (log entries 1 and 10). -/
def State.withFetchWord (s : State) (nbits w : Nat) : State := s.placeCommand (tableWord nbits w)

end Sys2Proof.Machine
end

