-- ==== Sys2Proof/Machine/Assembler.lean ====
section
/-! DEFINITION. The assembler of 30_encoding.md §6: the pseudo-instructions' expansions (R102) and the text syntax (R101). The block sees only the words they stand for. What R101 leaves open of the text is log entry 12. -/

namespace Sys2Proof.Machine

/-- One line of assembler (R101, R102). -/
inductive AsmLine where
  /-- One command. -/
  | instr (i : Instr)
  /-- `.word w`: the word as it is, whether it encodes a command or not. -/
  | word (w : Word)
  /-- `CK_SUM b0, …, bn`. -/
  | ckSum (bs : List Byte)
  /-- `RX_FEED h`. -/
  | rxFeed (bs : List Byte)
  /-- `TX_HDR t, c, k, L`. -/
  | txHdr (t c k : Byte) (l : Word)
  /-- `TX_FRAME t, c, k, p`. -/
  | txFrame (t c k : Byte) (p : List Byte)
deriving DecidableEq, Repr

/-- The expansion of `CK_SUM` (R102). -/
def ckSumInstrs (bs : List Byte) : List Instr := .ckClr :: bs.map .ckUpd ++ [.ckRd]

/-- The expansion of `RX_FEED` (R102). -/
def rxFeedInstrs (bs : List Byte) : List Instr := bs.map .rxPush

/-- The expansion of `TX_HDR` (R102). -/
def txHdrInstrs (t c k : Byte) (l : Word) : List Instr :=
  [.txSetType t, .txSetClass c, .txSetCmd k, .txSetLenLo (lowByte l), .txSetLenHi (highByte l)]

/-- The steps of a frame: 7 for its header, one for each payload byte, 2 for its checksum (R102, 42_serializer.md R187). -/
def txStepInstrs (p : List Byte) : List Instr :=
  List.replicate 7 (.txStep 0) ++ p.map .txStep ++ List.replicate 2 (.txStep 0)

/-- The expansion of `TX_FRAME` (R102). -/
def txFrameInstrs (t c k : Byte) (p : List Byte) : List Instr :=
  txHdrInstrs t c k (BitVec.ofNat 16 p.length) ++ .txGo :: txStepInstrs p

/-- The command words a line stands for, in order. -/
def AsmLine.words : AsmLine → List Word
  | .instr i => [encode i]
  | .word w => [w]
  | .ckSum bs => (ckSumInstrs bs).map encode
  | .rxFeed bs => (rxFeedInstrs bs).map encode
  | .txHdr t c k l => (txHdrInstrs t c k l).map encode
  | .txFrame t c k p => (txFrameInstrs t c k p).map encode

/-! ### Text -/

/-- The value of a digit in bases up to 16. -/
def digitVal (c : Char) : Option Nat :=
  if '0' ≤ c ∧ c ≤ '9' then some (c.toNat - '0'.toNat)
  else if 'a' ≤ c ∧ c ≤ 'f' then some (c.toNat - 'a'.toNat + 10)
  else if 'A' ≤ c ∧ c ≤ 'F' then some (c.toNat - 'A'.toNat + 10)
  else none

/-- Digits of a base, after a value already read. -/
def readDigits (base : Nat) : Nat → List Char → Option Nat
  | n, [] => some n
  | n, c :: cs =>
    match digitVal c with
    | some d => if d < base then readDigits base (n * base + d) cs else none
    | none => none

/-- A numeric operand: hex with `0x`, or decimal (R101). -/
def readNum : List Char → Option Nat
  | '0' :: 'x' :: c :: cs => readDigits 16 0 (c :: cs)
  | c :: cs => readDigits 10 0 (c :: cs)
  | [] => none

/-- A numeric operand below a bound. -/
def readBelow (bound : Nat) (cs : List Char) : Option Nat :=
  match readNum cs with
  | some n => if n < bound then some n else none
  | none => none

/-- A byte operand. -/
def readByte (cs : List Char) : Option Byte := (readBelow 256 cs).map (BitVec.ofNat 8)

/-- A 16-bit operand. -/
def readWord (cs : List Char) : Option Word := (readBelow 65536 cs).map (BitVec.ofNat 16)

/-- A hex byte string: two digits per byte, first byte leftmost (00_scope.md R12). -/
def readHexBytes : List Char → Option (List Byte)
  | [] => some []
  | [_] => none
  | a :: b :: cs =>
    match digitVal a, digitVal b, readHexBytes cs with
    | some x, some y, some bs => some (BitVec.ofNat 8 (16 * x + y) :: bs)
    | _, _, _ => none

/-- White space within a line. -/
def isBlank (c : Char) : Bool := c == ' ' || c == '\t'

/-- A text without the white space at its ends. -/
def trimText (cs : List Char) : List Char :=
  ((cs.dropWhile isBlank).reverse.dropWhile isBlank).reverse

/-- The parts of a text between commas. -/
def splitCommas : List Char → List (List Char)
  | [] => [[]]
  | c :: cs =>
    if c == ',' then [] :: splitCommas cs
    else
      match splitCommas cs with
      | part :: parts => (c :: part) :: parts
      | [] => [[c]]

/-- Each operand read as a byte. -/
def readBytes : List (List Char) → Option (List Byte)
  | [] => some []
  | t :: ts =>
    match readByte t, readBytes ts with
    | some b, some bs => some (b :: bs)
    | _, _ => none

/-- The commands and pseudo-instructions named by a mnemonic alone, with its operand texts (R101, R102). -/
def readOther (mnemonic : List Char) (ops : List (List Char)) : Option AsmLine :=
  let is (name : String) : Bool := mnemonic == name.toList
  match ops with
  | [] =>
    if is "NOP" then some (.instr .nop)
    else if is "CK_CLR" then some (.instr .ckClr)
    else if is "CK_RD" then some (.instr .ckRd)
    else if is "RX_RST" then some (.instr .rxRst)
    else if is "TX_GO" then some (.instr .txGo)
    else if is "TX_RST" then some (.instr .txRst)
    else if is "TX_STEP" then some (.instr (.txStep 0))
    else if is "CK_SUM" then some (.ckSum [])
    else if is "RX_FEED" then some (.rxFeed [])
    else none
  | [x] =>
    if is "CK_UPD" then (readByte x).map fun b => .instr (.ckUpd b)
    else if is "RX_PUSH" then (readByte x).map fun b => .instr (.rxPush b)
    else if is "TX_STEP" then (readByte x).map fun b => .instr (.txStep b)
    else if is ".word" then (readWord x).map .word
    else if is "RX_FEED" then (readHexBytes x).map .rxFeed
    else if is "CK_SUM" then (readBytes ops).map .ckSum
    else none
  | [t, c, k, x] =>
    if is "TX_HDR" then
      match readByte t, readByte c, readByte k, readWord x with
      | some t, some c, some k, some l => some (.txHdr t c k l)
      | _, _, _, _ => none
    else if is "TX_FRAME" then
      match readByte t, readByte c, readByte k, readHexBytes x with
      | some t, some c, some k, some p => if p.length < 65536 then some (.txFrame t c k p) else none
      | _, _, _, _ => none
    else if is "CK_SUM" then (readBytes ops).map .ckSum
    else none
  | _ => if is "CK_SUM" then (readBytes ops).map .ckSum else none

/-- The command a selector name makes of RX_RD (R101, R94). -/
def readRxSel (name : List Char) : Option Instr :=
  let is (text : String) : Bool := name == text.toList
  if is "STATUS" then some .rxRdStatus
  else if is "LEN" then some .rxRdLen
  else if is "TYPE" then some .rxRdType
  else if is "CLASS" then some .rxRdClass
  else if is "CMD" then some .rxRdCmd
  else if is "CKW" then some .rxRdCkw
  else if is "CKC" then some .rxRdCkc
  else if is "PCNT" then some .rxRdPcnt
  else none

/-- The command a selector name makes of TX_RD (R101, R95). -/
def readTxSel (name : List Char) : Option Instr :=
  let is (text : String) : Bool := name == text.toList
  if is "STATUS" then some .txRdStatus
  else if is "LEN" then some .txRdLen
  else if is "TYPE" then some .txRdType
  else if is "CLASS" then some .txRdClass
  else if is "CMD" then some .txRdCmd
  else if is "CK" then some .txRdCk
  else if is "PCNT" then some .txRdPcnt
  else none

/-- The command a selector name and a byte make of TX_SET (R101, R96). -/
def readTxSet (name : List Char) (v : Byte) : Option Instr :=
  let is (text : String) : Bool := name == text.toList
  if is "LEN_LO" then some (.txSetLenLo v)
  else if is "TYPE" then some (.txSetType v)
  else if is "CLASS" then some (.txSetClass v)
  else if is "CMD" then some (.txSetCmd v)
  else if is "LEN_HI" then some (.txSetLenHi v)
  else none

/-- A mnemonic with its operand texts. -/
def readLine (mnemonic : List Char) (ops : List (List Char)) : Option AsmLine :=
  match ops with
  | [s] =>
    if mnemonic == "RX_RD".toList then (readRxSel s).map .instr
    else if mnemonic == "TX_RD".toList then (readTxSel s).map .instr
    else readOther mnemonic ops
  | [s, v] =>
    if mnemonic == "TX_SET".toList then
      match readByte v with
      | some b => (readTxSet s b).map .instr
      | none => none
    else readOther mnemonic ops
  | _ => readOther mnemonic ops

/-- The words one line of text stands for; `;` starts a comment, an empty line stands for none, and `none` is a line that is no assembler (R101). -/
def assembleLine (line : List Char) : Option (List Word) :=
  let text := trimText (line.takeWhile fun c => c != ';')
  let rest := trimText (text.dropWhile fun c => !isBlank c)
  let ops := if rest.isEmpty then [] else (splitCommas rest).map trimText
  if text.isEmpty then some []
  else (readLine (text.takeWhile fun c => !isBlank c) ops).map AsmLine.words

/-- The words a program's lines stand for, in order. -/
def assemble : List String → Option (List Word)
  | [] => some []
  | l :: ls =>
    match assembleLine l.toList, assemble ls with
    | some ws, some rest => some (ws ++ rest)
    | _, _ => none

end Sys2Proof.Machine
end

