-- ==== Sys2Proof/Machine/Frame.lean ====
section
/-! DEFINITION. The pure functions of the source, the normative reference the units are proved against (00_scope.md R14): the checksum (40_checksum.md R120), decoding (41_deserializer.md R140 to R142) and encoding (42_serializer.md R180, R181) of a wire frame, and what RX's state says of the bytes pushed into it (41_deserializer.md R158). -/

namespace Sys2Proof.Machine

/-- The checksum of a byte list: two accumulators from zero, updated once per byte in list order, packed `{b, a}` (R120). -/
def checksum (xs : List Byte) : Word :=
  let ab := xs.foldl (fun (ab : Byte × Byte) x => ckstep ab.1 ab.2 x) (0x00, 0x00)
  pack ab.2 ab.1

/-- A frame to send (R180). -/
structure TxFrame where
  mtype : Byte
  mclass : Byte
  cmd : Byte
  payload : List Byte
deriving DecidableEq, Repr

/-- The well-formedness R180 defines; the command may be any byte. -/
def TxFrame.wellFormed (f : TxFrame) : Bool :=
  typeOk f.mtype && classOk f.mclass && decide (f.payload.length ≤ 65535)

/-- The length field of a frame to send, `L = len(payload)`. -/
def TxFrame.len (f : TxFrame) : Word := BitVec.ofNat 16 f.payload.length

/-- The checksum body `[type, class, command] ++ payload` (30_encoding.md R88). -/
def checksumBody (mtype mclass cmd : Byte) (payload : List Byte) : List Byte :=
  [mtype, mclass, cmd] ++ payload

/-- The checksum of a frame to send. -/
def TxFrame.sum (f : TxFrame) : Word := checksum (checksumBody f.mtype f.mclass f.cmd f.payload)

/-- `encode(f)`: the wire bytes of a well-formed frame (R181; 30_encoding.md R80). For other frames see log entry 11. -/
def encodeFrame (f : TxFrame) : List Byte :=
  [0x4D, 0x45, lowByte f.len, highByte f.len, f.mtype, f.mclass, f.cmd] ++ f.payload ++ [lowByte f.sum, highByte f.sum]

/-- A decoded frame (R140). -/
structure Frame where
  length : Word
  mtype : Byte
  mclass : Byte
  cmd : Byte
  commandKnown : Bool
  payload : List Byte
  checksum : Word
deriving DecidableEq, Repr

/-- The error kinds of decoding (R140, 60_exceptions.md R235 to R239). -/
inductive FrameError where
  | malformedFrame
  | unresolvedCode
  | truncatedPayload
  | checksumMismatch
deriving DecidableEq, Repr

/-- The result of decoding: a frame and how many bytes it took, or one error kind (R140, R141). -/
inductive Decoded where
  | frame (f : Frame) (consumed : Nat)
  | error (e : FrameError)
deriving DecidableEq, Repr

/-- Byte `i` of a buffer; `decodeFrame` reads only bytes whose presence it has checked. -/
def byteAt (bs : List Byte) (i : Nat) : Byte := bs.getD i 0

/-- The length field of a buffer that holds a whole header (30_encoding.md R83). -/
def frameLen (bs : List Byte) : Word := pack (byteAt bs 3) (byteAt bs 2)

/-- The payload of a buffer that holds a whole frame, `bs[7 .. 6+L]`. -/
def framePayload (bs : List Byte) : List Byte := (bs.drop 7).take (frameLen bs).toNat

/-- The checksum recomputed over a buffer's frame (30_encoding.md R88). -/
def frameSum (bs : List Byte) : Word :=
  checksum (checksumBody (byteAt bs 4) (byteAt bs 5) (byteAt bs 6) (framePayload bs))

/-- The wire-declared checksum of a buffer's frame (30_encoding.md R87). -/
def frameWire (bs : List Byte) : Word :=
  pack (byteAt bs (8 + (frameLen bs).toNat)) (byteAt bs (7 + (frameLen bs).toNat))

/-- `decode(bs)`: the source's steps 1 to 6 in order, returning at the first failure (R141). -/
def decodeFrame (bs : List Byte) : Decoded :=
  if 1 ≤ bs.length ∧ byteAt bs 0 ≠ 0x4D then .error .malformedFrame
  else if 2 ≤ bs.length ∧ byteAt bs 1 ≠ 0x45 then .error .malformedFrame
  else if bs.length < 7 then .error .truncatedPayload
  else if !typeOk (byteAt bs 4) || !classOk (byteAt bs 5) then .error .unresolvedCode
  else if bs.length < 9 + (frameLen bs).toNat then .error .truncatedPayload
  else if frameWire bs ≠ frameSum bs then .error .checksumMismatch
  else
    .frame
      { length := frameLen bs, mtype := byteAt bs 4, mclass := byteAt bs 5, cmd := byteAt bs 6,
        commandKnown := known (byteAt bs 5) (byteAt bs 6), payload := framePayload bs, checksum := frameSum bs }
      (9 + (frameLen bs).toNat)

/-- What RX's state says of the bytes `bs` pushed into it since it was armed (R158). RX holds no payload: the host, which pushed it, does. -/
def Rx.verdict (r : Rx) (bs : List Byte) : Decoded :=
  if r.magerr then .error .malformedFrame
  else if r.phase.toNat ≤ 6 then .error .truncatedPayload
  else if r.typerr || r.clserr then .error .unresolvedCode
  else if r.phase ≠ 10 then .error .truncatedPayload
  else if r.ckerr then .error .checksumMismatch
  else
    .frame
      { length := r.len, mtype := r.mtype, mclass := r.mclass, cmd := r.cmd, commandKnown := !r.cmdunk,
        payload := (bs.drop 7).take r.len.toNat, checksum := r.sum }
      (9 + r.len.toNat)

end Sys2Proof.Machine
end

