-- ==== Sys2Proof/Safety.lean ====
section
/-! DEFINITION. What counts as a safe state and a safe run, in the terms the statements use: the invariants of the three units, and the run of a list of commands. -/

namespace Sys2Proof

/-! ### Kinds of command -/

/-- The units of the block (30_encoding.md R92). -/
inductive BlockUnit where
  | cke | rx | tx
deriving DecidableEq, Repr

/-- The unit a command is addressed to, as R92's table gives it; NOP and the reserved words have none. -/
def Instr.unit : Instr → Option BlockUnit
  | .nop => none
  | .ckClr => some .cke
  | .ckUpd _ => some .cke
  | .ckRd => some .cke
  | .rxRst => some .rx
  | .rxPush _ => some .rx
  | .rxRdStatus => some .rx
  | .rxRdLen => some .rx
  | .rxRdType => some .rx
  | .rxRdClass => some .rx
  | .rxRdCmd => some .rx
  | .rxRdCkw => some .rx
  | .rxRdCkc => some .rx
  | .rxRdPcnt => some .rx
  | .txSetLenLo _ => some .tx
  | .txSetType _ => some .tx
  | .txSetClass _ => some .tx
  | .txSetCmd _ => some .tx
  | .txSetLenHi _ => some .tx
  | .txGo => some .tx
  | .txStep _ => some .tx
  | .txRdStatus => some .tx
  | .txRdLen => some .tx
  | .txRdType => some .tx
  | .txRdClass => some .tx
  | .txRdCmd => some .tx
  | .txRdCk => some .tx
  | .txRdPcnt => some .tx
  | .txRst => some .tx
  | .reserved _ => none

/-- The TX_SET commands. -/
def Instr.isTxSet (i : Instr) : Bool :=
  match i with
  | .txSetLenLo _ | .txSetType _ | .txSetClass _ | .txSetCmd _ | .txSetLenHi _ => true
  | _ => false

/-- The commands that only read: CK_RD, RX_RD and TX_RD (20_memory.md R69). -/
def Instr.isRead (i : Instr) : Bool :=
  match i with
  | .ckRd => true
  | .rxRdStatus | .rxRdLen | .rxRdType | .rxRdClass | .rxRdCmd | .rxRdCkw | .rxRdCkc | .rxRdPcnt => true
  | .txRdStatus | .txRdLen | .txRdType | .txRdClass | .txRdCmd | .txRdCk | .txRdPcnt => true
  | _ => false

end Sys2Proof

namespace Sys2Proof.Machine

/-- A checksum accumulator never holds 0xFF (10_state.md R23). -/
abbrev AccumulatorOk (x : Byte) : Prop := x.toNat ≤ 0xFE

/-- CKE's accumulators are in range (R23). -/
abbrev Cke.Inv (c : Cke) : Prop := AccumulatorOk c.a ∧ AccumulatorOk c.b

/-- RX's fields are in range: its accumulators (R23), its phase (R24, R40), and its payload count, which is 0 before PAYLOAD, below the length in it, and the length after it (R31). -/
abbrev Rx.Inv (r : Rx) : Prop :=
  AccumulatorOk r.a ∧ AccumulatorOk r.b ∧ r.phase.toNat ≤ 11
    ∧ (r.phase.toNat ≤ 6 → r.pcnt = 0)
    ∧ (r.phase.toNat = 7 → r.pcnt.toNat < r.len.toNat)
    ∧ (8 ≤ r.phase.toNat → r.phase.toNat ≤ 10 → r.pcnt = r.len)
    ∧ (r.phase.toNat = 11 → r.pcnt = 0)

/-- TX's fields are in range: its accumulators (R23), its phase (R35, R40), and while it is busy a well-formed header (42_serializer.md R184, R188) and a payload count that stands to the length as RX's does (R38; log entry 8). -/
abbrev Tx.Inv (t : Tx) : Prop :=
  AccumulatorOk t.a ∧ AccumulatorOk t.b ∧ (t.phase.toNat ≤ 10 ∨ t.phase.toNat = 12)
    ∧ (t.busy = true → t.codeOk = true)
    ∧ (t.phase.toNat ≤ 6 → t.pcnt = 0)
    ∧ (t.phase.toNat = 7 → t.pcnt.toNat < t.len.toNat)
    ∧ (8 ≤ t.phase.toNat → t.phase.toNat ≤ 9 → t.pcnt = t.len)

/-- TX's payload count against `l`, the length the current frame was started with: 10_state.md R38's clause, read of the frame it counts (log entry 8). While the frame is being sent, `l` is `TX.LEN` itself (42_serializer.md R188). -/
abbrev Tx.CountWithin (l : Word) (t : Tx) : Prop :=
  t.pcnt.toNat ≤ l.toNat ∧ (t.busy = true → t.len = l)

/-- The invariant of the block: every unit's fields are in the ranges the spec gives them. It holds at reset and every step keeps it. -/
abbrev Inv (s : State) : Prop := s.cke.Inv ∧ s.rx.Inv ∧ s.tx.Inv

/-- RX's flags agree with the registers and the phase they were computed from (60_exceptions.md R234, R241; 41_deserializer.md R157): each flag is clear before its phase and tells the truth after it, a magic error is exactly the ERROR phase and excludes the others, and `OVR` needs a terminal phase. -/
abbrev Rx.FlagsAgree (r : Rx) : Prop :=
  (r.magerr = decide (r.phase.toNat = 11))
    ∧ (r.typerr = (decide (5 ≤ r.phase.toNat ∧ r.phase.toNat ≤ 10) && !typeOk r.mtype))
    ∧ (r.clserr = (decide (6 ≤ r.phase.toNat ∧ r.phase.toNat ≤ 10) && !classOk r.mclass))
    ∧ (r.cmdunk = (decide (7 ≤ r.phase.toNat ∧ r.phase.toNat ≤ 10) && !known r.mclass r.cmd))
    ∧ (r.ckerr = (decide (r.phase.toNat = 10) && decide (r.ckw ≠ r.sum)))
    ∧ (r.ovr = true → 10 ≤ r.phase.toNat)

/-- Run commands one after another, stopping at the first that does not answer a next state (20_memory.md R70). -/
def execAll : List Instr → State → Host.Outcome State Fault Refusal
  | [], s => .next s
  | i :: is, s =>
    match exec i s with
    | .next t => execAll is t
    | .fault r => .fault r
    | .refused r => .refused r

/-! ### Words the statements are written in -/

/-- The command word on the port is `w`. -/
abbrev OnPort (s : State) (w : Word) : Prop := s.port.events.head? = some (.command w)

/-- The block's state, the tuple `(CKE, RX, TX)` of 10_state.md R20, is the same. -/
abbrev SameBlock (s t : State) : Prop := t.cke = s.cke ∧ t.rx = s.rx ∧ t.tx = s.tx

/-- Between `s` and `t` the command on the port was answered, with exactly the response `r`. -/
abbrev Returned (s t : State) (r : Response) : Prop :=
  t.port.responses = s.port.responses ++ [r] ∧ t.port.events = s.port.events.tail

/-- The block answers the word ILLEGAL in every state, with no effect (60_exceptions.md R231). -/
def AnsweredIllegal (w : Word) : Prop :=
  ∀ s : State, OnPort s w → ∃ t, step s = .next t ∧ SameBlock s t ∧ Returned s t { st := .illegal, data := 0 }

/-- The block answers the instruction REFUSED in this state, with no effect (60_exceptions.md R232). -/
def AnsweredRefused (i : Instr) (s : State) : Prop :=
  ∃ t, exec i s = .next t ∧ SameBlock s t ∧ Returned s t { st := .refused, data := 0 }

/-- The instruction executes in this state, changes no unit, and its result is `v`. -/
def ReadsAs (i : Instr) (s : State) (v : Word) : Prop :=
  ∃ t, exec i s = .next t ∧ SameBlock s t ∧ Returned s t { st := .ok, data := v }

/-- The wire bytes in a list of TX_STEP responses: `data[7:0]` of each (42_serializer.md R185). -/
def emittedBytes (rs : List Response) : List Byte := rs.map fun r => lowByte r.data

/-- The commands that send a frame (42_serializer.md R187): its five header bytes by TX_SET in any order, TX_GO, and `9 + L` TX_STEPs of which number `7 + i` carries payload byte `i` and the others carry anything. -/
def SendsFrame (f : TxFrame) (is : List Instr) : Prop :=
  ∃ (hdr : List Instr) (pre post : List Byte),
    hdr.Perm (txHdrInstrs f.mtype f.mclass f.cmd f.len) ∧ pre.length = 7 ∧ post.length = 2
      ∧ is = hdr ++ .txGo :: (pre ++ f.payload ++ post).map .txStep

end Sys2Proof.Machine
end

