-- ==== Sys2Proof/WellFormed.lean ====
section
/-! DEFINITION. Well-formedness.
A term of `Instr` is well-formed by construction (Syntax.lean); what can be ill-formed is a command WORD, and `legalWord` is the spec's own list of the ways (30_encoding.md R97), written from that rule alone and not from the decoder.
The well-formedness of a frame to send (42_serializer.md R180) is `TxFrame.wellFormed` in Machine/Frame.lean, and that of a state is `Machine.Inv` in Safety.lean.
-/

namespace Sys2Proof

/-- The words R97 makes ILLEGAL, one clause of the rule per line, as a test on the three fields read as numbers. -/
def illegalFields (op sel data : Nat) : Bool :=
  (0xC ≤ op)
    || (op == 0x6 && 8 ≤ sel)
    || (op == 0xA && 7 ≤ sel)
    || (op == 0x7 && !(sel == 1 || sel == 2 || sel == 3 || sel == 4 || sel == 9))
    || ((op == 0x6 || op == 0xA) && data != 0)
    || ((op == 0x0 || op == 0x1 || op == 0x3 || op == 0x4 || op == 0x8 || op == 0xB) && (sel != 0 || data != 0))
    || ((op == 0x2 || op == 0x5 || op == 0x9) && sel != 0)

/-- Whether a command word encodes a command of R92, that is, whether R97 does not make it ILLEGAL. -/
def legalWord (w : Word) : Bool :=
  !illegalFields (w.toNat / 4096) (w.toNat / 256 % 16) (w.toNat % 256)

/-- Whether an instruction is a command of R92: every one but the table's "(reserved)" row. -/
def Instr.isCommand : Instr → Bool
  | .reserved _ => false
  | _ => true

end Sys2Proof
end

