-- ==== Sys2Proof/Certificates/Slice0/Obligations.lean ====
section
/-! DEFINITION. The statements about the ME221 frame engine, for the provers. Each says which rule of spec/ it formalises.
Where a statement speaks of `port.events` or `port.responses`, that is the model's own bookkeeping of the host's input and the block's output (log entries 1, 2 and 4).
-/

open Sys2Proof Sys2Proof.Machine

/-! ### Reset -/

/-- 10_state.md R43: the reset value of every state element. -/
def Obligations.ResetValues : Prop :=
  State.reset.cke.a = 0x00 ∧ State.reset.cke.b = 0x00
    ∧ State.reset.rx.phase = 0 ∧ State.reset.rx.len = 0x0000 ∧ State.reset.rx.mtype = 0x00
    ∧ State.reset.rx.mclass = 0x00 ∧ State.reset.rx.cmd = 0x00 ∧ State.reset.rx.ckw = 0x0000
    ∧ State.reset.rx.a = 0x00 ∧ State.reset.rx.b = 0x00 ∧ State.reset.rx.pcnt = 0x0000
    ∧ State.reset.rx.magerr = false ∧ State.reset.rx.typerr = false ∧ State.reset.rx.clserr = false
    ∧ State.reset.rx.cmdunk = false ∧ State.reset.rx.ckerr = false ∧ State.reset.rx.ovr = false
    ∧ State.reset.tx.phase = 12 ∧ State.reset.tx.len = 0x0000 ∧ State.reset.tx.mtype = 0x00
    ∧ State.reset.tx.mclass = 0x00 ∧ State.reset.tx.cmd = 0x00
    ∧ State.reset.tx.a = 0x00 ∧ State.reset.tx.b = 0x00 ∧ State.reset.tx.pcnt = 0x0000

/-- 70_reset_and_hazards.md R260: the reset event gives every state element its reset value, whatever the state was. That the event is one of the host's, taken by a step, is log entry 5. -/
def Obligations.ResetEventResetsEveryUnit : Prop :=
  ∀ s : State, s.port.events.head? = some .reset →
    ∃ t, step s = .next t ∧ SameBlock State.reset t

/-- 70_reset_and_hazards.md R261: what the host reads after reset. -/
def Obligations.ReadsAfterReset : Prop :=
  ReadsAs .ckRd State.reset 0x0000 ∧ ReadsAs .ckRd State.reset (checksum [])
    ∧ ReadsAs .rxRdStatus State.reset 0x0000
    ∧ ReadsAs .txRdStatus State.reset 0x0C04
    ∧ ReadsAs .txRdType State.reset 0x0000 ∧ ReadsAs .txRdClass State.reset 0x0000
    ∧ ReadsAs .txRdCmd State.reset 0x0000 ∧ ReadsAs .txRdLen State.reset 0x0000

/-! ### Invariants that every step keeps -/

/-- 10_state.md R23: every accumulator holds 0x00 to 0xFE: 0x00 after reset, and kept in range by every step. -/
def Obligations.AccumulatorsNeverHoldFF : Prop :=
  let inRange (s : State) : Prop :=
    ∀ v ∈ [s.cke.a, s.cke.b, s.rx.a, s.rx.b, s.tx.a, s.tx.b], v ≠ 0xFF
  (∀ v ∈ [State.reset.cke.a, State.reset.cke.b, State.reset.rx.a, State.reset.rx.b, State.reset.tx.a, State.reset.tx.b],
      v = 0x00)
    ∧ ∀ s t : State, inRange s → step s = .next t → inRange t

/-- Every step keeps the ranges of the fields (10_state.md R23, R24, R31, R35, R38, R40), from every state that has them. For TX's payload count the range is the one the commands keep (log entry 8). -/
def Obligations.StepKeepsRanges : Prop :=
  ∀ s t : State, Inv s → step s = .next t → Inv t

/-- Every step keeps RX's flags in agreement with its registers (60_exceptions.md R234, R241; 41_deserializer.md R157's note on CKC and CKW). -/
def Obligations.StepKeepsRxFlagsTrue : Prop :=
  ∀ s t : State, s.rx.FlagsAgree → step s = .next t → t.rx.FlagsAgree

/-- The reset state has both invariants. -/
def Obligations.ResetHasInvariants : Prop := Inv State.reset ∧ State.reset.rx.FlagsAgree

/-- 60_exceptions.md R230: no exception. In every state with its fields in range, a step answers a next state, whatever is on the port: the model's two faults (log entry 7) are for phase codes that are never held. -/
def Obligations.StepNeverStops : Prop :=
  ∀ s : State, Inv s → ∃ t, step s = .next t ∧ Inv t

/-- The pair of rules log entry 8 is about: 10_state.md R38 says that TX.PCNT never exceeds TX.LEN. Expected to FAIL, because TX_SET may lower TX.LEN in DONE, where TX.PCNT is kept (42_serializer.md R183). -/
def Obligations.TxCountNeverExceedsLength : Prop :=
  ∀ s t : State, Inv s → s.tx.pcnt.toNat ≤ s.tx.len.toNat → step s = .next t → t.tx.pcnt.toNat ≤ t.tx.len.toNat

/-- 10_state.md R38's clause that TX.PCNT never exceeds TX.LEN, as the model reads it (log entry 8, DEDUCED): TX.PCNT counts the bytes of a frame and never exceeds the TX.LEN that frame was started with, which is TX.LEN itself until the frame is complete; there the two are equal. Only TX_GO makes an idle TX busy, so a frame starts at the step that does. -/
def Obligations.TxCountStaysWithinItsFrame : Prop :=
  (∀ l : Word, State.reset.tx.CountWithin l)
    ∧ ∀ (s t : State) (l : Word), Inv s → s.tx.CountWithin l → step s = .next t →
        t.tx.CountWithin (if s.tx.busy = false ∧ t.tx.busy = true then s.tx.len else l)
          ∧ (s.tx.busy = true → t.tx.phase = 10 → t.tx.pcnt = l ∧ t.tx.len = l)

/-! ### Encoding -/

/-- With a word on the port that decodes to an instruction, the step is that instruction's meaning, at that state. The answer takes the word off the port (log entry 4). -/
def Obligations.StepRunsTheDecodedInstruction : Prop :=
  ∀ (s : State) (w : Word) (i : Instr), OnPort s w → decode w = .ok i → step s = exec i s

/-- A table word placed on the port is what the next step runs. How a program's commands come to the port is log entry 1. -/
def Obligations.PlacedWordIsRunNext : Prop :=
  ∀ (s : State) (w : Nat) (i : Instr), decodeTableWord 16 w = some i →
    step (s.withFetchWord 16 w) = exec i (s.withFetchWord 16 w)

/-- 60_exceptions.md R249: the block is idle between commands and holds its state. That a step is taken then at all is the model's choice (log entry 3). -/
def Obligations.IdleBlockHoldsItsState : Prop :=
  ∀ s : State, s.port.events = [] → step s = .next s

/-- Decoding an encoded instruction gives it back, with every operand at every value. -/
def Obligations.DecodeOfEncode : Prop := ∀ i : Instr, decode (encode i) = .ok i

/-- A word that decodes is the encoding of what it decodes to, and of nothing else: no bit of a word is ignored (30_encoding.md R97, R99). -/
def Obligations.EncodeOfDecode : Prop := ∀ (w : Word) (i : Instr), decode w = .ok i → encode i = w

/-- 30_encoding.md R97: exactly which words encode no command; every other word encodes exactly one. -/
def Obligations.IllegalWordsExactly : Prop :=
  ∀ w : Word,
    let op := (opField w).toNat
    let sel := (selField w).toNat
    let data := (dataField w).toNat
    ((¬ ∃ i, decode w = .ok i ∧ i.isCommand = true) ↔
        (0xC ≤ op ∧ op ≤ 0xF)
          ∨ (op = 0x6 ∧ 8 ≤ sel)
          ∨ (op = 0xA ∧ 7 ≤ sel)
          ∨ (op = 0x7 ∧ sel ∉ [1, 2, 3, 4, 9])
          ∨ (op ∈ [0x6, 0xA] ∧ data ≠ 0)
          ∨ (op ∈ [0x0, 0x1, 0x3, 0x4, 0x8, 0xB] ∧ (sel ≠ 0 ∨ data ≠ 0))
          ∨ (op ∈ [0x2, 0x5, 0x9] ∧ sel ≠ 0))
      ∧ ∀ i j, encode i = w → encode j = w → i = j

/-- 30_encoding.md R99: exactly 2069 of the 65536 words encode a command, and the other 63467 do not. -/
def Obligations.CommandWordCount : Prop :=
  let isCommandWord (n : Nat) : Bool :=
    match decode (BitVec.ofNat 16 n) with
    | .ok i => i.isCommand
    | .error _ => false
  ((List.range 65536).filter isCommandWord).length = 2069
    ∧ ((List.range 65536).filter fun n => !isCommandWord n).length = 63467

/-- A few words written out from the encodings of 30_encoding.md R92, R94, R95 and R96, with the commands they stand for. The last four words encode no command (R97); that `0xC123` is read as the instruction `reserved`, and the names `dataNotZero`, `selNotZero` and `selReserved` of the other three, are the model's choice (log entry 16, DESIGN CHOICE). -/
def Obligations.DecodesWordsOfTheSpec : Prop :=
  decode 0x0000 = .ok .nop ∧ decode 0x20FE = .ok (.ckUpd 0xFE) ∧ decode 0x504D = .ok (.rxPush 0x4D)
    ∧ decode 0x6600 = .ok .rxRdCkc ∧ decode 0x7304 = .ok (.txSetClass 0x04) ∧ decode 0x7901 = .ok (.txSetLenHi 0x01)
    ∧ decode 0x8000 = .ok .txGo ∧ decode 0xA600 = .ok .txRdPcnt ∧ decode 0xC123 = .ok (.reserved 0x0123)
    ∧ decode 0x1001 = .error .dataNotZero ∧ decode 0x2100 = .error .selNotZero ∧ decode 0x6800 = .error .selReserved

/-- 43_control.md R221: every word that encodes no command is answered ILLEGAL in every state, with no effect; the reserved words, taken as instructions, likewise. -/
def Obligations.IllegalWordsHaveNoEffect : Prop :=
  (∀ w : Word, (¬ ∃ i, decode w = .ok i ∧ i.isCommand = true) → AnsweredIllegal w)
    ∧ (∀ w : Word, 0xC ≤ (opField w).toNat → AnsweredIllegal w)
    ∧ ∀ (low : BitVec 14) (s : State),
        ∃ t, exec (.reserved low) s = .next t ∧ SameBlock s t ∧ Returned s t { st := .illegal, data := 0 }

/-- 30_encoding.md R91: the response word, its codes, and that a response that is not OK carries 0x0000 and comes with no effect. -/
def Obligations.ResponseWordFormat : Prop :=
  (∀ r : Response, r.word.extractLsb' 0 16 = r.data
      ∧ r.word.extractLsb' 16 2 = (match r.st with | .ok => 0b00#2 | .illegal => 0b01#2 | .refused => 0b10#2))
    ∧ (∀ r : Response, r.word.extractLsb' 16 2 ≠ 0b11#2)
    ∧ ∀ (s t : State) (w : Word), OnPort s w → step s = .next t →
        ∃ r, Returned s t r ∧ (r.st ≠ .ok → r.data = 0x0000 ∧ SameBlock s t)

/-- 60_exceptions.md R232: the complete list of refusals, each with no effect and data 0x0000; nothing else is ever REFUSED. -/
def Obligations.RefusedExactlyWhen : Prop :=
  ∀ (i : Instr) (s t : State) (r : Response), exec i s = .next t → Returned s t r →
    ((r.st = .refused ↔
        (i.isTxSet = true ∧ s.tx.phase.toNat ≤ 9)
          ∨ (i = .txGo ∧ s.tx.phase.toNat ≤ 9)
          ∨ (i = .txGo ∧ ((s.tx.mtype ≠ 0x00 ∧ s.tx.mtype ≠ 0x0F) ∨ 0x08 < s.tx.mclass.toNat))
          ∨ ((∃ x, i = .txStep x) ∧ (s.tx.phase = 12 ∨ s.tx.phase = 10)))
      ∧ (r.st = .refused → r.data = 0x0000 ∧ SameBlock s t))

/-! ### Frames over all commands -/

/-- 10_state.md R42: the access matrix; what a command is not listed for, it leaves unchanged. -/
def Obligations.AccessMatrix : Prop :=
  (∀ (i : Instr) (s t : State), exec i s = .next t →
    ((i ≠ .ckClr ∧ (∀ x, i ≠ .ckUpd x)) → t.cke = s.cke)
      ∧ ((i ≠ .rxRst ∧ (∀ x, i ≠ .rxPush x)) → t.rx = s.rx)
      ∧ (∀ x, i = .rxPush x →
          (s.rx.phase ≠ 2 → s.rx.phase ≠ 3 → t.rx.len = s.rx.len)
            ∧ (s.rx.phase ≠ 4 → t.rx.mtype = s.rx.mtype)
            ∧ (s.rx.phase ≠ 5 → t.rx.mclass = s.rx.mclass)
            ∧ (s.rx.phase ≠ 6 → t.rx.cmd = s.rx.cmd)
            ∧ (s.rx.phase ≠ 8 → s.rx.phase ≠ 9 → t.rx.ckw = s.rx.ckw))
      ∧ ((i.isTxSet = false ∧ i ≠ .txRst) →
          t.tx.len = s.tx.len ∧ t.tx.mtype = s.tx.mtype ∧ t.tx.mclass = s.tx.mclass ∧ t.tx.cmd = s.tx.cmd)
      ∧ ((i ≠ .txGo ∧ (∀ x, i ≠ .txStep x) ∧ i ≠ .txRst) →
          t.tx.phase = s.tx.phase ∧ t.tx.a = s.tx.a ∧ t.tx.b = s.tx.b ∧ t.tx.pcnt = s.tx.pcnt)
      ∧ ((i = .nop ∨ i.isRead = true) → SameBlock s t))
    ∧ ∀ (s t : State) (w : Word) (r : Response),
        OnPort s w → step s = .next t → Returned s t r → r.st ≠ .ok → SameBlock s t

/-- 20_memory.md R74: a command reads and writes only the state of the unit it is addressed to: the other units are unchanged, and neither its effect on its own unit nor its response depends on them. -/
def Obligations.UnitsAreIndependent : Prop :=
  (∀ (i : Instr) (s t : State), exec i s = .next t →
      (i.unit ≠ some .cke → t.cke = s.cke) ∧ (i.unit ≠ some .rx → t.rx = s.rx)
        ∧ (i.unit ≠ some .tx → t.tx = s.tx))
    ∧ ∀ (i : Instr) (s u t : State) (r : Response),
        (i.unit = some .cke → s.cke = u.cke) → (i.unit = some .rx → s.rx = u.rx)
          → (i.unit = some .tx → s.tx = u.tx) → exec i s = .next t → Returned s t r →
        ∃ v, exec i u = .next v ∧ Returned u v r
          ∧ (i.unit = some .cke → t.cke = v.cke) ∧ (i.unit = some .rx → t.rx = v.rx)
          ∧ (i.unit = some .tx → t.tx = v.tx)

/-- 60_exceptions.md R242: the six RX flags are sticky: no command but RX_RST clears one, and RX_RST clears all of them along with the parsed registers. -/
def Obligations.RxFlagsAreSticky : Prop :=
  (∀ (i : Instr) (s t : State), i ≠ .rxRst → exec i s = .next t →
      (s.rx.magerr = true → t.rx.magerr = true) ∧ (s.rx.typerr = true → t.rx.typerr = true)
        ∧ (s.rx.clserr = true → t.rx.clserr = true) ∧ (s.rx.cmdunk = true → t.rx.cmdunk = true)
        ∧ (s.rx.ckerr = true → t.rx.ckerr = true) ∧ (s.rx.ovr = true → t.rx.ovr = true))
    ∧ ∀ s : State, ∃ t, exec .rxRst s = .next t
        ∧ t.rx.magerr = false ∧ t.rx.typerr = false ∧ t.rx.clserr = false ∧ t.rx.cmdunk = false ∧ t.rx.ckerr = false
        ∧ t.rx.ovr = false ∧ t.rx.len = 0 ∧ t.rx.mtype = 0 ∧ t.rx.mclass = 0 ∧ t.rx.cmd = 0 ∧ t.rx.ckw = 0

/-- 10_state.md R41: no state is hidden: two states that answer every read alike hold the same block. -/
def Obligations.ReadsDetermineTheBlock : Prop :=
  ∀ s u : State,
    (∀ (i : Instr) (v : Word), i.isRead = true → (ReadsAs i s v ↔ ReadsAs i u v)) →
    SameBlock s u

/-! ### The checksum -/

/-- 40_checksum.md R121: the one-byte step, for accumulators in range, is the mod-255 form and the 9-bit form alike. -/
def Obligations.ChecksumStepForms : Prop :=
  ∀ a b x : Byte, a.toNat ≤ 0xFE → b.toNat ≤ 0xFE →
    (ckstep a b x).1.toNat = (a.toNat + x.toNat) % 255
      ∧ (ckstep a b x).2.toNat = (b.toNat + (ckstep a b x).1.toNat) % 255
      ∧ (let s : BitVec 9 := a.setWidth 9 + x.setWidth 9
         let a' : Byte := if 255 ≤ s.toNat then (s - 255).setWidth 8 else s.setWidth 8
         let t : BitVec 9 := b.setWidth 9 + a'.setWidth 9
         let b' : Byte := if 255 ≤ t.toNat then (t - 255).setWidth 8 else t.setWidth 8
         ckstep a b x = (a', b'))

/-- What 40_checksum.md R120 computes, in closed form: A is the sum of the bytes and B the sum of the running sums, both modulo 255. -/
def Obligations.ChecksumClosedForm : Prop :=
  ∀ xs : List Byte,
    (lowByte (checksum xs)).toNat = (xs.map BitVec.toNat).sum % 255
      ∧ (highByte (checksum xs)).toNat = (((xs.map BitVec.toNat).inits.map List.sum).sum) % 255

/-- 40_checksum.md R123: the properties of the function, (a) to (e). -/
def Obligations.ChecksumProperties : Prop :=
  checksum [] = 0x0000
    ∧ (∀ xs : List Byte, lowByte (checksum xs) ≠ 0xFF ∧ highByte (checksum xs) ≠ 0xFF)
    ∧ (∀ pre post : List Byte, checksum (pre ++ 0xFF :: post) = checksum (pre ++ 0x00 :: post))
    ∧ checksum [0xFF] = 0x0000 ∧ checksum [0x00] = 0x0000
    ∧ checksum [0x01, 0x02] = 0x0403 ∧ checksum [0x02, 0x01] = 0x0503
    ∧ checksum [0x01, 0x03, 0x02] = 0x0B06 ∧ checksum [0x02, 0x01, 0x03] = 0x0B06
    ∧ (∀ pre mid post : List Byte,
        checksum (pre ++ 0x00 :: mid ++ 0xFF :: post) = checksum (pre ++ 0xFF :: mid ++ 0x00 :: post))
    ∧ (∀ xs : List Byte,
        pack (lowByte (checksum xs)) (highByte (checksum xs)) = checksum xs ↔ lowByte (checksum xs) = highByte (checksum xs))
    ∧ checksum [0x00, 0x04, 0x00] = 0x0804
    ∧ pack (lowByte (checksum [0x00, 0x04, 0x00])) (highByte (checksum [0x00, 0x04, 0x00])) = 0x0408
    ∧ checksum [0x01] = 0x0101

/-! ### NOP and CKE -/

/-- 43_control.md R220. -/
def Obligations.NopDoesNothing : Prop :=
  decode 0x0000 = .ok .nop
    ∧ (∀ w : Word, opField w = 0x0 → selField w ≠ 0 ∨ dataField w ≠ 0 → AnsweredIllegal w)
    ∧ ∀ s : State, ReadsAs .nop s 0x0000

/-- 40_checksum.md R124. -/
def Obligations.CkClrClearsCke : Prop :=
  decode 0x1000 = .ok .ckClr
    ∧ (∀ w : Word, opField w = 0x1 → selField w ≠ 0 ∨ dataField w ≠ 0 → AnsweredIllegal w)
    ∧ ∀ s : State, ∃ t, exec .ckClr s = .next t
        ∧ t.cke.a = 0x00 ∧ t.cke.b = 0x00 ∧ t.rx = s.rx ∧ t.tx = s.tx ∧ Returned s t { st := .ok, data := 0x0000 }

/-- 40_checksum.md R125, with the step of R121 written out in numbers. -/
def Obligations.CkUpdFoldsOneByte : Prop :=
  (∀ x : Byte, decode (0x20#8 ++ x) = .ok (.ckUpd x))
    ∧ (∀ w : Word, opField w = 0x2 → selField w ≠ 0 → AnsweredIllegal w)
    ∧ ∀ (x : Byte) (s : State), ∃ t, exec (.ckUpd x) s = .next t
        ∧ t.cke.a.toNat = (s.cke.a.toNat + x.toNat) % 255
        ∧ t.cke.b.toNat = (s.cke.b.toNat + (s.cke.a.toNat + x.toNat) % 255) % 255
        ∧ t.rx = s.rx ∧ t.tx = s.tx ∧ Returned s t { st := .ok, data := t.cke.b ++ t.cke.a }

/-- 40_checksum.md R126. -/
def Obligations.CkRdReadsCke : Prop :=
  decode 0x3000 = .ok .ckRd
    ∧ (∀ w : Word, opField w = 0x3 → selField w ≠ 0 ∨ dataField w ≠ 0 → AnsweredIllegal w)
    ∧ ∀ s : State, ReadsAs .ckRd s (s.cke.b ++ s.cke.a)

/-- 40_checksum.md R127: CK_CLR, CK_UPD of each byte and CK_RD answer the checksum, and each CK_UPD the checksum so far, for any byte list. -/
def Obligations.CkSumComputesTheChecksum : Prop :=
  ∀ (xs : List Byte) (s : State), ∃ t,
    execAll (.ckClr :: xs.map .ckUpd ++ [.ckRd]) s = .next t
      ∧ t.port.responses = s.port.responses
          ++ { st := .ok, data := 0x0000 }
            :: (List.range xs.length).map (fun k => { st := .ok, data := checksum (xs.take (k + 1)) })
          ++ [{ st := .ok, data := checksum xs }]
      ∧ t.rx = s.rx ∧ t.tx = s.tx

/-! ### RX -/

/-- 41_deserializer.md R143, in every phase, a frame in progress included. -/
def Obligations.RxRstArmsRx : Prop :=
  decode 0x4000 = .ok .rxRst
    ∧ (∀ w : Word, opField w = 0x4 → selField w ≠ 0 ∨ dataField w ≠ 0 → AnsweredIllegal w)
    ∧ ∀ s : State, ∃ t, exec .rxRst s = .next t
        ∧ t.rx.phase = 0 ∧ t.rx.len = 0x0000 ∧ t.rx.mtype = 0x00 ∧ t.rx.mclass = 0x00 ∧ t.rx.cmd = 0x00
        ∧ t.rx.ckw = 0x0000 ∧ t.rx.a = 0x00 ∧ t.rx.b = 0x00 ∧ t.rx.pcnt = 0x0000
        ∧ t.rx.magerr = false ∧ t.rx.typerr = false ∧ t.rx.clserr = false
        ∧ t.rx.cmdunk = false ∧ t.rx.ckerr = false ∧ t.rx.ovr = false
        ∧ t.cke = s.cke ∧ t.tx = s.tx ∧ Returned s t { st := .ok, data := 0x0000 }

/-- 41_deserializer.md R144 and R156, register by register: what each field of RX becomes as a function of the phase `q` the byte is consumed in, and the response. -/
def Obligations.RxPushUpdatesEachRegister : Prop :=
  (∀ x : Byte, decode (0x50#8 ++ x) = .ok (.rxPush x))
    ∧ (∀ w : Word, opField w = 0x5 → selField w ≠ 0 → AnsweredIllegal w)
    ∧ ∀ (x : Byte) (s : State), s.rx.phase.toNat ≤ 11 →
        let q := s.rx.phase.toNat
        let r := s.rx
        ∃ t, exec (.rxPush x) s = .next t ∧ t.cke = s.cke ∧ t.tx = s.tx
          ∧ t.rx.phase =
              (if q = 0 then (if x = 0x4D then 1 else 11)
               else if q = 1 then (if x = 0x45 then 2 else 11)
               else if q = 6 then (if r.len = 0 then 8 else 7)
               else if q = 7 then (if r.pcnt + 1 = r.len then 8 else 7)
               else if q ≤ 9 then r.phase + 1
               else r.phase)
          ∧ t.rx.len = (if q = 2 then highByte r.len ++ x else if q = 3 then x ++ lowByte r.len else r.len)
          ∧ t.rx.mtype = (if q = 4 then x else r.mtype)
          ∧ t.rx.mclass = (if q = 5 then x else r.mclass)
          ∧ t.rx.cmd = (if q = 6 then x else r.cmd)
          ∧ t.rx.ckw = (if q = 8 then highByte r.ckw ++ x else if q = 9 then x ++ lowByte r.ckw else r.ckw)
          ∧ t.rx.a.toNat = (if 4 ≤ q ∧ q ≤ 7 then (r.a.toNat + x.toNat) % 255 else r.a.toNat)
          ∧ t.rx.b.toNat =
              (if 4 ≤ q ∧ q ≤ 7 then (r.b.toNat + (r.a.toNat + x.toNat) % 255) % 255 else r.b.toNat)
          ∧ t.rx.pcnt = (if q = 7 then r.pcnt + 1 else r.pcnt)
          ∧ t.rx.magerr = (r.magerr || decide ((q = 0 ∧ x ≠ 0x4D) ∨ (q = 1 ∧ x ≠ 0x45)))
          ∧ t.rx.typerr = (r.typerr || decide (q = 4 ∧ x ≠ 0x00 ∧ x ≠ 0x0F))
          ∧ t.rx.clserr = (r.clserr || decide (q = 5 ∧ 0x08 < x.toNat))
          ∧ t.rx.cmdunk = (r.cmdunk || decide (q = 6 ∧ known r.mclass x = false))
          ∧ t.rx.ckerr = (r.ckerr || decide (q = 9 ∧ x ++ lowByte r.ckw ≠ r.b ++ r.a))
          ∧ t.rx.ovr = (r.ovr || decide (q = 10 ∨ q = 11))
          ∧ Returned s t { st := .ok, data := r.phase ++ t.rx.status.extractLsb' 0 12 }

/-- 41_deserializer.md R145: a wrong first or second byte sets MAGERR at once and stops RX in ERROR, where every further byte is dropped with OVR. -/
def Obligations.MagicMismatchStopsRx : Prop :=
  ∀ (x : Byte) (more : List Byte) (s : State),
    (s.rx.phase = 0 ∧ x ≠ 0x4D) ∨ (s.rx.phase = 1 ∧ x ≠ 0x45) →
    ∃ t, execAll ((x :: more).map .rxPush) s = .next t
      ∧ t.rx = { s.rx with magerr := true, phase := 11, ovr := s.rx.ovr || !more.isEmpty }

/-- 41_deserializer.md R150: in DONE and in ERROR a pushed byte is dropped, sets OVR and changes nothing else, and the response's `q` tells it. -/
def Obligations.PushAfterTheFrameIsDropped : Prop :=
  ∀ (x : Byte) (s : State), s.rx.phase = 10 ∨ s.rx.phase = 11 →
    ∃ t, exec (.rxPush x) s = .next t ∧ t.rx = { s.rx with ovr := true } ∧ t.cke = s.cke ∧ t.tx = s.tx
      ∧ ∃ v, Returned s t { st := .ok, data := v } ∧ v.extractLsb' 12 4 = s.rx.phase

/-- A whole frame pushed into RX, whatever its codes and its checksum bytes (41_deserializer.md R144, R146 to R149): RX takes exactly the length's worth of payload and the two checksum bytes, ends in DONE, keeps the raw codes, and each flag tells what its rule says. -/
def Obligations.RxTakesAWholeFrame : Prop :=
  ∀ (t c k lo hi : Byte) (p : List Byte) (s : State), p.length ≤ 65535 →
    ∃ u, execAll (.rxRst :: ([0x4D, 0x45, BitVec.ofNat 8 p.length, BitVec.ofNat 8 (p.length / 256), t, c, k] ++ p ++ [lo, hi]).map .rxPush) s = .next u
      ∧ u.rx.phase = 10 ∧ u.rx.len.toNat = p.length ∧ u.rx.pcnt = u.rx.len
      ∧ u.rx.mtype = t ∧ u.rx.mclass = c ∧ u.rx.cmd = k
      ∧ u.rx.ckw = hi ++ lo ∧ u.rx.b ++ u.rx.a = checksum ([t, c, k] ++ p)
      ∧ u.rx.magerr = false ∧ u.rx.ovr = false
      ∧ u.rx.typerr = decide (t ≠ 0x00 ∧ t ≠ 0x0F)
      ∧ u.rx.clserr = decide (0x08 < c.toNat)
      ∧ u.rx.cmdunk = !known c k
      ∧ u.rx.ckerr = decide (hi ++ lo ≠ checksum ([t, c, k] ++ p))

/-- 41_deserializer.md R158: RX, fed any bytes from RX_RST or from reset, gives exactly what `decode` gives on them, and OVR is set exactly when bytes came after a complete frame or after a magic error. -/
def Obligations.RxRealisesDecode : Prop :=
  (∀ (bs : List Byte) (s : State), ∃ t,
      execAll (.rxRst :: bs.map .rxPush) s = .next t
        ∧ t.rx.verdict bs = decodeFrame bs
        ∧ (t.rx.ovr = true ↔
            (t.rx.phase = 10 ∧ 9 + t.rx.len.toNat < bs.length)
              ∨ (2 ≤ bs.length ∧ byteAt bs 0 ≠ 0x4D) ∨ (3 ≤ bs.length ∧ byteAt bs 1 ≠ 0x45)))
    ∧ ∀ (bs : List Byte) (s : State), s.rx = State.reset.rx → ∃ t,
      execAll (bs.map .rxPush) s = .next t ∧ t.rx.verdict bs = decodeFrame bs

/-- 41_deserializer.md R159: the two-phase read: 7 header bytes, RX_RD LEN, then exactly LEN + 2 bytes, ends in DONE with no overrun; a shorter second read does not. -/
def Obligations.TwoPhaseRead : Prop :=
  ∀ (l0 l1 t c k : Byte) (s : State), ∃ u,
    execAll (.rxRst :: [0x4D, 0x45, l0, l1, t, c, k].map .rxPush) s = .next u
      ∧ u.rx.phase = (if l1 ++ l0 = (0 : Word) then 8 else 7)
      ∧ ReadsAs .rxRdLen u (l1 ++ l0)
      ∧ ∀ rest : List Byte, rest.length ≤ (l1 ++ l0 : Word).toNat + 2 →
          ∃ v, execAll (.rxRdLen :: rest.map .rxPush) u = .next v ∧ v.rx.ovr = false
            ∧ (v.rx.phase = 10 ↔ rest.length = (l1 ++ l0 : Word).toNat + 2)

/-- 41_deserializer.md R157: RX_RD reads the register its selector names, in every phase, and writes nothing. -/
def Obligations.RxRdReadsEachRegister : Prop :=
  (decode 0x6000 = .ok .rxRdStatus ∧ decode 0x6100 = .ok .rxRdLen ∧ decode 0x6200 = .ok .rxRdType
      ∧ decode 0x6300 = .ok .rxRdClass ∧ decode 0x6400 = .ok .rxRdCmd ∧ decode 0x6500 = .ok .rxRdCkw
      ∧ decode 0x6600 = .ok .rxRdCkc ∧ decode 0x6700 = .ok .rxRdPcnt)
    ∧ (∀ w : Word, opField w = 0x6 → 8 ≤ (selField w).toNat ∨ dataField w ≠ 0 → AnsweredIllegal w)
    ∧ ∀ s : State,
        ReadsAs .rxRdStatus s s.rx.status ∧ ReadsAs .rxRdLen s s.rx.len
          ∧ ReadsAs .rxRdType s (0#8 ++ s.rx.mtype) ∧ ReadsAs .rxRdClass s (0#8 ++ s.rx.mclass)
          ∧ ReadsAs .rxRdCmd s (0#8 ++ s.rx.cmd) ∧ ReadsAs .rxRdCkw s s.rx.ckw
          ∧ ReadsAs .rxRdCkc s (s.rx.b ++ s.rx.a) ∧ ReadsAs .rxRdPcnt s s.rx.pcnt

/-- 10_state.md R33 and R34: every bit of RX.STATUS. -/
def Obligations.RxStatusBits : Prop :=
  ∀ r : Rx,
    r.status.extractLsb' 12 4 = 0#4 ∧ r.status.extractLsb' 8 4 = r.phase
      ∧ r.status.getLsbD 7 = (r.magerr || r.typerr || r.clserr || r.ckerr)
      ∧ r.status.getLsbD 6 = r.ovr ∧ r.status.getLsbD 5 = r.ckerr ∧ r.status.getLsbD 4 = r.cmdunk
      ∧ r.status.getLsbD 3 = r.clserr ∧ r.status.getLsbD 2 = r.typerr ∧ r.status.getLsbD 1 = r.magerr
      ∧ r.status.getLsbD 0 = decide (r.phase = 10)
      ∧ State.reset.rx.status = 0x0000

/-- 00_scope.md R10: what is settled of the open parameters, whatever they are. -/
def Obligations.OpenParametersConstrained : Prop :=
  reportingCmds 0x01 = true ∧ reportingCmds 0x02 = true ∧ systemCmds 0x00 = true ∧ systemCmds 0x01 = true
    ∧ reportingCmds sendReportCode = true ∧ sendReportCode ≠ 0x01 ∧ sendReportCode ≠ 0x02

/-- 30_encoding.md R86: the predicate `known`, and that it is false for every class without a taxonomy. -/
def Obligations.KnownFollowsTheCommandSets : Prop :=
  (∀ c k : Byte, known c k = true ↔ (c = 0x00 ∧ reportingCmds k = true) ∨ (c = 0x04 ∧ systemCmds k = true))
    ∧ (∀ c k : Byte, c ≠ 0x00 → c ≠ 0x04 → known c k = false)
    ∧ known 0x00 0x01 = true ∧ known 0x00 0x02 = true ∧ known 0x04 0x00 = true ∧ known 0x04 0x01 = true

/-- 00_scope.md R17: a frame is accepted, rejected or incomplete, and exactly one of the three. -/
def Obligations.FrameAcceptedRejectedOrIncomplete : Prop :=
  ∀ r : Rx,
    (r.accepted = true ↔ r.phase = 10 ∧ r.err = false)
      ∧ (r.rejected = true ↔ (r.phase = 10 ∧ r.err = true) ∨ r.phase = 11)
      ∧ (r.incomplete = true ↔ r.phase ≠ 10 ∧ r.phase ≠ 11)
      ∧ [r.accepted, r.rejected, r.incomplete].count true = 1

/-- 41_deserializer.md R148: CMDUNK is set on the CMD byte when the class has no taxonomy or the command is not in the class's set; the frame's acceptance does not depend on it. -/
def Obligations.CmdunkFollowsTheTaxonomy : Prop :=
  (∀ (x : Byte) (s : State), s.rx.phase = 6 → s.rx.cmdunk = false →
      ∃ t, exec (.rxPush x) s = .next t ∧ t.rx.err = s.rx.err
        ∧ (t.rx.cmdunk = true ↔
            (s.rx.mclass ≠ 0x00 ∧ s.rx.mclass ≠ 0x04)
              ∨ (s.rx.mclass = 0x00 ∧ reportingCmds x = false) ∨ (s.rx.mclass = 0x04 ∧ systemCmds x = false)))
    ∧ (∀ (x : Byte) (s t : State), s.rx.phase ≠ 6 → exec (.rxPush x) s = .next t → t.rx.cmdunk = s.rx.cmdunk)
    ∧ ∀ (r : Rx) (f : Bool), { r with cmdunk := f }.err = r.err ∧ { r with cmdunk := f }.accepted = r.accepted

/-! ### TX -/

/-- 42_serializer.md R182, in every phase. -/
def Obligations.TxRstClearsTx : Prop :=
  decode 0xB000 = .ok .txRst
    ∧ (∀ w : Word, opField w = 0xB → selField w ≠ 0 ∨ dataField w ≠ 0 → AnsweredIllegal w)
    ∧ ∀ s : State, ∃ t, exec .txRst s = .next t
        ∧ t.tx.phase = 12 ∧ t.tx.len = 0x0000 ∧ t.tx.mtype = 0x00 ∧ t.tx.mclass = 0x00 ∧ t.tx.cmd = 0x00
        ∧ t.tx.a = 0x00 ∧ t.tx.b = 0x00 ∧ t.tx.pcnt = 0x0000
        ∧ t.cke = s.cke ∧ t.rx = s.rx ∧ Returned s t { st := .ok, data := 0x0000 }

/-- 42_serializer.md R183: TX_SET writes the one register byte its selector names, or is refused with no effect while TX is busy. -/
def Obligations.TxSetWritesOneByte : Prop :=
  (∀ v : Byte, decode (0x71#8 ++ v) = .ok (.txSetLenLo v) ∧ decode (0x72#8 ++ v) = .ok (.txSetType v)
      ∧ decode (0x73#8 ++ v) = .ok (.txSetClass v) ∧ decode (0x74#8 ++ v) = .ok (.txSetCmd v)
      ∧ decode (0x79#8 ++ v) = .ok (.txSetLenHi v))
    ∧ (∀ w : Word, opField w = 0x7 → (selField w).toNat ∉ [1, 2, 3, 4, 9] → AnsweredIllegal w)
    ∧ (∀ (i : Instr) (s : State), i.isTxSet = true → s.tx.phase.toNat ≤ 9 → AnsweredRefused i s)
    ∧ ∀ (v : Byte) (s : State), 9 < s.tx.phase.toNat →
        (let writes (i : Instr) (after : Tx) : Prop :=
          ∃ t, exec i s = .next t ∧ t.tx = after ∧ t.cke = s.cke ∧ t.rx = s.rx ∧ Returned s t { st := .ok, data := 0x0000 }
         writes (.txSetLenLo v) { s.tx with len := highByte s.tx.len ++ v }
           ∧ writes (.txSetType v) { s.tx with mtype := v }
           ∧ writes (.txSetClass v) { s.tx with mclass := v }
           ∧ writes (.txSetCmd v) { s.tx with cmd := v }
           ∧ writes (.txSetLenHi v) { s.tx with len := v ++ lowByte s.tx.len })

/-- 42_serializer.md R184: TX_GO starts a frame when TX is not busy and the header is well-formed, and is refused with no effect otherwise. -/
def Obligations.TxGoStartsAFrame : Prop :=
  decode 0x8000 = .ok .txGo
    ∧ (∀ w : Word, opField w = 0x8 → selField w ≠ 0 ∨ dataField w ≠ 0 → AnsweredIllegal w)
    ∧ (∀ s : State, s.tx.phase.toNat ≤ 9 → AnsweredRefused .txGo s)
    ∧ (∀ s : State, ¬ ((s.tx.mtype = 0x00 ∨ s.tx.mtype = 0x0F) ∧ s.tx.mclass.toNat ≤ 0x08) → AnsweredRefused .txGo s)
    ∧ ∀ s : State, 9 < s.tx.phase.toNat → (s.tx.mtype = 0x00 ∨ s.tx.mtype = 0x0F) → s.tx.mclass.toNat ≤ 0x08 →
        ∃ t, exec .txGo s = .next t ∧ t.tx = { s.tx with phase := 0, a := 0x00, b := 0x00, pcnt := 0x0000 }
          ∧ t.cke = s.cke ∧ t.rx = s.rx ∧ Returned s t { st := .ok, data := 0x0000 }

/-- 42_serializer.md R185, register by register: the byte emitted and what each field of TX becomes as a function of the phase `q`; REFUSED with no effect in IDLE and DONE. -/
def Obligations.TxStepEmitsTheNextByte : Prop :=
  (∀ x : Byte, decode (0x90#8 ++ x) = .ok (.txStep x))
    ∧ (∀ w : Word, opField w = 0x9 → selField w ≠ 0 → AnsweredIllegal w)
    ∧ (∀ (x : Byte) (s : State), s.tx.phase = 10 ∨ s.tx.phase = 12 → AnsweredRefused (.txStep x) s)
    ∧ ∀ (x : Byte) (s : State), s.tx.phase.toNat ≤ 9 →
        let q := s.tx.phase.toNat
        let u := s.tx
        let b : Byte :=
          if q = 0 then 0x4D else if q = 1 then 0x45 else if q = 2 then lowByte u.len else if q = 3 then highByte u.len
          else if q = 4 then u.mtype else if q = 5 then u.mclass else if q = 6 then u.cmd else if q = 7 then x
          else if q = 8 then u.a else u.b
        ∃ t, exec (.txStep x) s = .next t ∧ t.cke = s.cke ∧ t.rx = s.rx
          ∧ t.tx.phase =
              (if q = 6 then (if u.len = 0 then 8 else 7)
               else if q = 7 then (if u.pcnt + 1 = u.len then 8 else 7)
               else u.phase + 1)
          ∧ t.tx.len = u.len ∧ t.tx.mtype = u.mtype ∧ t.tx.mclass = u.mclass ∧ t.tx.cmd = u.cmd
          ∧ t.tx.a.toNat = (if 4 ≤ q ∧ q ≤ 7 then (u.a.toNat + b.toNat) % 255 else u.a.toNat)
          ∧ t.tx.b.toNat =
              (if 4 ≤ q ∧ q ≤ 7 then (u.b.toNat + (u.a.toNat + b.toNat) % 255) % 255 else u.b.toNat)
          ∧ t.tx.pcnt = (if q = 7 then u.pcnt + 1 else u.pcnt)
          ∧ Returned s t { st := .ok, data := 0x0#4 ++ u.phase ++ b }

/-- 30_encoding.md R93's exception and 70_reset_and_hazards.md R267: outside PAYLOAD the data of TX_STEP is ignored. -/
def Obligations.TxStepIgnoresDataOutsidePayload : Prop :=
  ∀ (x y : Byte) (s : State), s.tx.phase ≠ 7 → exec (.txStep x) s = exec (.txStep y) s

/-- 42_serializer.md R186: TX_RD reads the register its selector names, in every phase, and writes nothing. -/
def Obligations.TxRdReadsEachRegister : Prop :=
  (decode 0xA000 = .ok .txRdStatus ∧ decode 0xA100 = .ok .txRdLen ∧ decode 0xA200 = .ok .txRdType
      ∧ decode 0xA300 = .ok .txRdClass ∧ decode 0xA400 = .ok .txRdCmd ∧ decode 0xA500 = .ok .txRdCk
      ∧ decode 0xA600 = .ok .txRdPcnt)
    ∧ (∀ w : Word, opField w = 0xA → 7 ≤ (selField w).toNat ∨ dataField w ≠ 0 → AnsweredIllegal w)
    ∧ ∀ s : State,
        ReadsAs .txRdStatus s s.tx.status ∧ ReadsAs .txRdLen s s.tx.len
          ∧ ReadsAs .txRdType s (0#8 ++ s.tx.mtype) ∧ ReadsAs .txRdClass s (0#8 ++ s.tx.mclass)
          ∧ ReadsAs .txRdCmd s (0#8 ++ s.tx.cmd) ∧ ReadsAs .txRdCk s (s.tx.b ++ s.tx.a)
          ∧ ReadsAs .txRdPcnt s s.tx.pcnt

/-- 10_state.md R39: every bit of TX.STATUS. -/
def Obligations.TxStatusBits : Prop :=
  ∀ t : Tx,
    t.status.extractLsb' 12 4 = 0#4 ∧ t.status.extractLsb' 8 4 = t.phase ∧ t.status.extractLsb' 3 5 = 0#5
      ∧ t.status.getLsbD 2 = decide ((t.mtype = 0x00 ∨ t.mtype = 0x0F) ∧ t.mclass.toNat ≤ 0x08)
      ∧ t.status.getLsbD 1 = decide (t.phase.toNat ≤ 9)
      ∧ t.status.getLsbD 0 = decide (t.phase = 10)
      ∧ State.reset.tx.status = 0x0C04

/-- 70_reset_and_hazards.md R268: a frame takes exactly `9 + L` TX_STEPs after TX_GO; until then TX is busy and refuses TX_SET and TX_GO, and one more step is REFUSED. -/
def Obligations.FrameTakesNinePlusLengthSteps : Prop :=
  ∀ (xs : List Byte) (s g : State), exec .txGo s = .next g → g.tx.phase = 0 → s.tx.phase.toNat > 9 →
    xs.length ≤ 9 + s.tx.len.toNat →
    ∃ t, execAll (xs.map .txStep) g = .next t
      ∧ (xs.length < 9 + s.tx.len.toNat →
          t.tx.phase.toNat ≤ 9 ∧ AnsweredRefused .txGo t ∧ ∀ i : Instr, i.isTxSet = true → AnsweredRefused i t)
      ∧ (xs.length = 9 + s.tx.len.toNat → t.tx.phase = 10 ∧ ∀ x, AnsweredRefused (.txStep x) t)

/-! ### The wire frame, and the units against the functions -/

/-- 30_encoding.md R80 with R81 and R87: `encode` of a well-formed frame, byte by byte. -/
def Obligations.EncodedFrameLayout : Prop :=
  ∀ f : TxFrame, f.wellFormed = true →
    let l := f.payload.length
    let w := encodeFrame f
    let sum := checksum ([f.mtype, f.mclass, f.cmd] ++ f.payload)
    w.length = 9 + l ∧ w[0]? = some 0x4D ∧ w[1]? = some 0x45
      ∧ w[2]? = some (BitVec.ofNat 8 (l % 256)) ∧ w[3]? = some (BitVec.ofNat 8 (l / 256))
      ∧ w[4]? = some f.mtype ∧ w[5]? = some f.mclass ∧ w[6]? = some f.cmd
      ∧ (∀ i, i < l → w[7 + i]? = f.payload[i]?)
      ∧ w[7 + l]? = some (lowByte sum) ∧ w[8 + l]? = some (highByte sum)

/-- 42_serializer.md R187: TX, given a frame's header in any order and its payload bytes on the right steps, emits exactly `encode` of the frame, every response OK, and ends in DONE with the frame's checksum. -/
def Obligations.TxRealisesEncode : Prop :=
  ∀ (f : TxFrame) (is : List Instr) (s : State), f.wellFormed = true → s.tx.phase = 12 ∨ s.tx.phase = 10 → SendsFrame f is →
    ∃ (t : State) (setup emitted : List Response),
      execAll is s = .next t
        ∧ t.port.responses = s.port.responses ++ setup ++ emitted
        ∧ setup.length = 6 ∧ emitted.length = 9 + f.payload.length
        ∧ (∀ r ∈ setup ++ emitted, r.st = .ok)
        ∧ emittedBytes emitted = encodeFrame f
        ∧ t.tx.phase = 10 ∧ t.tx.b ++ t.tx.a = checksum ([f.mtype, f.mclass, f.cmd] ++ f.payload)

/-- 43_control.md R222: the round-trip law, for every well-formed frame, its command known or not. -/
def Obligations.FrameRoundTrip : Prop :=
  ∀ f : TxFrame, f.wellFormed = true →
    decodeFrame (encodeFrame f) =
      .frame
        { length := BitVec.ofNat 16 f.payload.length, mtype := f.mtype, mclass := f.mclass, cmd := f.cmd,
          commandKnown := known f.mclass f.cmd, payload := f.payload,
          checksum := checksum ([f.mtype, f.mclass, f.cmd] ++ f.payload) }
        (9 + f.payload.length)

/-- 43_control.md R223: the bytes TX emits for a well-formed frame, pushed into a freshly armed RX, are accepted, and RX holds what TX holds. -/
def Obligations.UnitRoundTrip : Prop :=
  ∀ (f : TxFrame) (is : List Instr) (s : State), f.wellFormed = true → s.tx.phase = 12 ∨ s.tx.phase = 10 → SendsFrame f is →
    ∃ (t u : State) (setup emitted : List Response),
      execAll is s = .next t
        ∧ t.port.responses = s.port.responses ++ setup ++ emitted ∧ setup.length = 6
        ∧ emitted.length = 9 + f.payload.length
        ∧ execAll (.rxRst :: (emittedBytes emitted).map .rxPush) t = .next u
        ∧ u.rx.phase = 10 ∧ u.rx.err = false ∧ u.rx.ovr = false
        ∧ u.rx.len = u.tx.len ∧ u.rx.mtype = u.tx.mtype ∧ u.rx.mclass = u.tx.mclass ∧ u.rx.cmd = u.tx.cmd
        ∧ u.rx.ckw = u.rx.b ++ u.rx.a ∧ u.rx.ckw = u.tx.b ++ u.tx.a
        ∧ u.rx.pcnt = u.tx.pcnt ∧ u.tx.pcnt = u.tx.len
        ∧ u.tx = t.tx

/-- 30_encoding.md R102: the words each pseudo-instruction stands for, in order. -/
def Obligations.PseudoInstructionExpansions : Prop :=
  (∀ bs : List Byte, (AsmLine.ckSum bs).words = [0x1000] ++ bs.map (fun b => 0x20#8 ++ b) ++ [0x3000])
    ∧ (∀ bs : List Byte, (AsmLine.rxFeed bs).words = bs.map fun b => 0x50#8 ++ b)
    ∧ (∀ (t c k : Byte) (l : Word), (AsmLine.txHdr t c k l).words =
        [0x72#8 ++ t, 0x73#8 ++ c, 0x74#8 ++ k, 0x71#8 ++ l.extractLsb' 0 8, 0x79#8 ++ l.extractLsb' 8 8])
    ∧ ∀ (t c k : Byte) (p : List Byte), (AsmLine.txFrame t c k p).words =
        (AsmLine.txHdr t c k (BitVec.ofNat 16 p.length)).words ++ [0x8000]
          ++ List.replicate 7 0x9000 ++ p.map (fun b => 0x90#8 ++ b) ++ List.replicate 2 0x9000
end

