-- ==== Sys2Proof/Laws/Decode.lean ====
section
/-! SUPPORT. The fields of a command word: `mkWord` and the three field readers are inverse to one another. -/

namespace Sys2Proof

@[simp] theorem opField_mkWord (op sel : Nibble) (data : Byte) : opField (mkWord op sel data) = op := by
  unfold opField mkWord
  ext i hi
  simp only [BitVec.getElem_extractLsb', BitVec.getLsbD_append]
  have h1 : ¬ 12 + i < 8 := by omega
  have h2 : ¬ 12 + i - 8 < 4 := by omega
  have h3 : 12 + i - 8 - 4 = i := by omega
  simp [h1, h2, h3, BitVec.getLsbD_eq_getElem hi]

@[simp] theorem selField_mkWord (op sel : Nibble) (data : Byte) : selField (mkWord op sel data) = sel := by
  unfold selField mkWord
  ext i hi
  simp only [BitVec.getElem_extractLsb', BitVec.getLsbD_append]
  have h1 : ¬ 8 + i < 8 := by omega
  have h2 : 8 + i - 8 < 4 := by omega
  have h3 : 8 + i - 8 = i := by omega
  simp [h1, h3, hi]

@[simp] theorem dataField_mkWord (op sel : Nibble) (data : Byte) : dataField (mkWord op sel data) = data := by
  unfold dataField mkWord
  ext i hi
  simp only [BitVec.getElem_extractLsb', BitVec.getLsbD_append, Nat.zero_add]
  simp [hi]

@[simp] theorem mkWord_fields (w : Word) : mkWord (opField w) (selField w) (dataField w) = w := by
  unfold mkWord opField selField dataField
  ext i hi
  simp only [BitVec.getElem_append, BitVec.getElem_extractLsb']
  split
  · simp [BitVec.getLsbD_eq_getElem hi]
  · split
    · have : 8 + (i - 8) = i := by omega
      simp [this, BitVec.getLsbD_eq_getElem hi]
    · have : 12 + (i - 8 - 4) = i := by omega
      simp [this, BitVec.getLsbD_eq_getElem hi]

theorem opField_toNat (w : Word) : (opField w).toNat = w.toNat / 4096 := by
  have := w.isLt
  simp [opField, BitVec.extractLsb'_toNat, Nat.shiftRight_eq_div_pow]
  omega

theorem selField_toNat (w : Word) : (selField w).toNat = w.toNat / 256 % 16 := by
  simp [selField, BitVec.extractLsb'_toNat, Nat.shiftRight_eq_div_pow]

theorem dataField_toNat (w : Word) : (dataField w).toNat = w.toNat % 256 := by
  simp [dataField, BitVec.extractLsb'_toNat]

end Sys2Proof
end

