-- ==== Sys2Proof/Laws/State.lean ====
section
/-! SUPPORT. What each update of the state leaves in each field, true by `rfl`, so that no later proof unfolds a record update. -/

namespace Sys2Proof.Machine

@[simp] theorem State.setCke_cke (s : State) (c : Cke) : (s.setCke c).cke = c := rfl
@[simp] theorem State.setCke_rx (s : State) (c : Cke) : (s.setCke c).rx = s.rx := rfl
@[simp] theorem State.setCke_tx (s : State) (c : Cke) : (s.setCke c).tx = s.tx := rfl
@[simp] theorem State.setCke_port (s : State) (c : Cke) : (s.setCke c).port = s.port := rfl

@[simp] theorem State.setRx_cke (s : State) (r : Rx) : (s.setRx r).cke = s.cke := rfl
@[simp] theorem State.setRx_rx (s : State) (r : Rx) : (s.setRx r).rx = r := rfl
@[simp] theorem State.setRx_tx (s : State) (r : Rx) : (s.setRx r).tx = s.tx := rfl
@[simp] theorem State.setRx_port (s : State) (r : Rx) : (s.setRx r).port = s.port := rfl

@[simp] theorem State.setTx_cke (s : State) (t : Tx) : (s.setTx t).cke = s.cke := rfl
@[simp] theorem State.setTx_rx (s : State) (t : Tx) : (s.setTx t).rx = s.rx := rfl
@[simp] theorem State.setTx_tx (s : State) (t : Tx) : (s.setTx t).tx = t := rfl
@[simp] theorem State.setTx_port (s : State) (t : Tx) : (s.setTx t).port = s.port := rfl

@[simp] theorem State.answer_cke (s : State) (r : Response) : (s.answer r).cke = s.cke := rfl
@[simp] theorem State.answer_rx (s : State) (r : Response) : (s.answer r).rx = s.rx := rfl
@[simp] theorem State.answer_tx (s : State) (r : Response) : (s.answer r).tx = s.tx := rfl
@[simp] theorem State.answer_port (s : State) (r : Response) : (s.answer r).port = s.port.answer r := rfl

@[simp] theorem Port.answer_events (p : Port) (r : Response) : (p.answer r).events = p.events.tail := rfl
@[simp] theorem Port.answer_responses (p : Port) (r : Response) : (p.answer r).responses = p.responses ++ [r] := rfl

@[simp] theorem State.resetEvent_cke (s : State) : s.resetEvent.cke = Cke.reset := rfl
@[simp] theorem State.resetEvent_rx (s : State) : s.resetEvent.rx = Rx.reset := rfl
@[simp] theorem State.resetEvent_tx (s : State) : s.resetEvent.tx = Tx.reset := rfl
@[simp] theorem State.resetEvent_events (s : State) : s.resetEvent.port.events = s.port.events.tail := rfl
@[simp] theorem State.resetEvent_responses (s : State) : s.resetEvent.port.responses = s.port.responses := rfl

@[simp] theorem State.placeCommand_cke (s : State) (w : Word) : (s.placeCommand w).cke = s.cke := rfl
@[simp] theorem State.placeCommand_rx (s : State) (w : Word) : (s.placeCommand w).rx = s.rx := rfl
@[simp] theorem State.placeCommand_tx (s : State) (w : Word) : (s.placeCommand w).tx = s.tx := rfl
@[simp] theorem State.placeCommand_events (s : State) (w : Word) :
    (s.placeCommand w).port.events = .command w :: s.port.events := rfl
@[simp] theorem State.placeCommand_responses (s : State) (w : Word) :
    (s.placeCommand w).port.responses = s.port.responses := rfl

@[simp] theorem Cke.fold_a (c : Cke) (x : Byte) : (c.fold x).a = (ckstep c.a c.b x).1 := rfl
@[simp] theorem Cke.fold_b (c : Cke) (x : Byte) : (c.fold x).b = (ckstep c.a c.b x).2 := rfl

@[simp] theorem Rx.goto_phase (r : Rx) (p : Phase) : (r.goto p).phase = p.code := rfl
@[simp] theorem Rx.goto_len (r : Rx) (p : Phase) : (r.goto p).len = r.len := rfl
@[simp] theorem Rx.goto_mtype (r : Rx) (p : Phase) : (r.goto p).mtype = r.mtype := rfl
@[simp] theorem Rx.goto_mclass (r : Rx) (p : Phase) : (r.goto p).mclass = r.mclass := rfl
@[simp] theorem Rx.goto_cmd (r : Rx) (p : Phase) : (r.goto p).cmd = r.cmd := rfl
@[simp] theorem Rx.goto_ckw (r : Rx) (p : Phase) : (r.goto p).ckw = r.ckw := rfl
@[simp] theorem Rx.goto_a (r : Rx) (p : Phase) : (r.goto p).a = r.a := rfl
@[simp] theorem Rx.goto_b (r : Rx) (p : Phase) : (r.goto p).b = r.b := rfl
@[simp] theorem Rx.goto_pcnt (r : Rx) (p : Phase) : (r.goto p).pcnt = r.pcnt := rfl
@[simp] theorem Rx.goto_magerr (r : Rx) (p : Phase) : (r.goto p).magerr = r.magerr := rfl
@[simp] theorem Rx.goto_typerr (r : Rx) (p : Phase) : (r.goto p).typerr = r.typerr := rfl
@[simp] theorem Rx.goto_clserr (r : Rx) (p : Phase) : (r.goto p).clserr = r.clserr := rfl
@[simp] theorem Rx.goto_cmdunk (r : Rx) (p : Phase) : (r.goto p).cmdunk = r.cmdunk := rfl
@[simp] theorem Rx.goto_ckerr (r : Rx) (p : Phase) : (r.goto p).ckerr = r.ckerr := rfl
@[simp] theorem Rx.goto_ovr (r : Rx) (p : Phase) : (r.goto p).ovr = r.ovr := rfl

@[simp] theorem Rx.fold_phase (r : Rx) (x : Byte) : (r.fold x).phase = r.phase := rfl
@[simp] theorem Rx.fold_len (r : Rx) (x : Byte) : (r.fold x).len = r.len := rfl
@[simp] theorem Rx.fold_mtype (r : Rx) (x : Byte) : (r.fold x).mtype = r.mtype := rfl
@[simp] theorem Rx.fold_mclass (r : Rx) (x : Byte) : (r.fold x).mclass = r.mclass := rfl
@[simp] theorem Rx.fold_cmd (r : Rx) (x : Byte) : (r.fold x).cmd = r.cmd := rfl
@[simp] theorem Rx.fold_ckw (r : Rx) (x : Byte) : (r.fold x).ckw = r.ckw := rfl
@[simp] theorem Rx.fold_a (r : Rx) (x : Byte) : (r.fold x).a = (ckstep r.a r.b x).1 := rfl
@[simp] theorem Rx.fold_b (r : Rx) (x : Byte) : (r.fold x).b = (ckstep r.a r.b x).2 := rfl
@[simp] theorem Rx.fold_pcnt (r : Rx) (x : Byte) : (r.fold x).pcnt = r.pcnt := rfl
@[simp] theorem Rx.fold_magerr (r : Rx) (x : Byte) : (r.fold x).magerr = r.magerr := rfl
@[simp] theorem Rx.fold_typerr (r : Rx) (x : Byte) : (r.fold x).typerr = r.typerr := rfl
@[simp] theorem Rx.fold_clserr (r : Rx) (x : Byte) : (r.fold x).clserr = r.clserr := rfl
@[simp] theorem Rx.fold_cmdunk (r : Rx) (x : Byte) : (r.fold x).cmdunk = r.cmdunk := rfl
@[simp] theorem Rx.fold_ckerr (r : Rx) (x : Byte) : (r.fold x).ckerr = r.ckerr := rfl
@[simp] theorem Rx.fold_ovr (r : Rx) (x : Byte) : (r.fold x).ovr = r.ovr := rfl

@[simp] theorem Tx.goto_phase (t : Tx) (p : Phase) : (t.goto p).phase = p.code := rfl
@[simp] theorem Tx.goto_len (t : Tx) (p : Phase) : (t.goto p).len = t.len := rfl
@[simp] theorem Tx.goto_mtype (t : Tx) (p : Phase) : (t.goto p).mtype = t.mtype := rfl
@[simp] theorem Tx.goto_mclass (t : Tx) (p : Phase) : (t.goto p).mclass = t.mclass := rfl
@[simp] theorem Tx.goto_cmd (t : Tx) (p : Phase) : (t.goto p).cmd = t.cmd := rfl
@[simp] theorem Tx.goto_a (t : Tx) (p : Phase) : (t.goto p).a = t.a := rfl
@[simp] theorem Tx.goto_b (t : Tx) (p : Phase) : (t.goto p).b = t.b := rfl
@[simp] theorem Tx.goto_pcnt (t : Tx) (p : Phase) : (t.goto p).pcnt = t.pcnt := rfl

@[simp] theorem Tx.fold_phase (t : Tx) (x : Byte) : (t.fold x).phase = t.phase := rfl
@[simp] theorem Tx.fold_len (t : Tx) (x : Byte) : (t.fold x).len = t.len := rfl
@[simp] theorem Tx.fold_mtype (t : Tx) (x : Byte) : (t.fold x).mtype = t.mtype := rfl
@[simp] theorem Tx.fold_mclass (t : Tx) (x : Byte) : (t.fold x).mclass = t.mclass := rfl
@[simp] theorem Tx.fold_cmd (t : Tx) (x : Byte) : (t.fold x).cmd = t.cmd := rfl
@[simp] theorem Tx.fold_a (t : Tx) (x : Byte) : (t.fold x).a = (ckstep t.a t.b x).1 := rfl
@[simp] theorem Tx.fold_b (t : Tx) (x : Byte) : (t.fold x).b = (ckstep t.a t.b x).2 := rfl
@[simp] theorem Tx.fold_pcnt (t : Tx) (x : Byte) : (t.fold x).pcnt = t.pcnt := rfl

@[simp] theorem Tx.start_phase (t : Tx) : t.start.phase = 0 := rfl
@[simp] theorem Tx.start_len (t : Tx) : t.start.len = t.len := rfl
@[simp] theorem Tx.start_mtype (t : Tx) : t.start.mtype = t.mtype := rfl
@[simp] theorem Tx.start_mclass (t : Tx) : t.start.mclass = t.mclass := rfl
@[simp] theorem Tx.start_cmd (t : Tx) : t.start.cmd = t.cmd := rfl
@[simp] theorem Tx.start_a (t : Tx) : t.start.a = 0 := rfl
@[simp] theorem Tx.start_b (t : Tx) : t.start.b = 0 := rfl
@[simp] theorem Tx.start_pcnt (t : Tx) : t.start.pcnt = 0 := rfl

end Sys2Proof.Machine
end

