-- ==== Sys2Proof/Laws/Ops.lean ====
section
/-! SUPPORT. One lemma for each shared operation that says everything it can do; later proofs cite it and do not unfold the operation. -/

namespace Sys2Proof.Machine

/-! ### Bytes of a word -/

@[simp] theorem lowByte_pack (h l : Byte) : lowByte (pack h l) = l := by
  unfold lowByte pack
  ext i hi
  simp only [BitVec.getElem_extractLsb', BitVec.getLsbD_append, Nat.zero_add]
  simp [hi]

@[simp] theorem highByte_pack (h l : Byte) : highByte (pack h l) = h := by
  unfold highByte pack
  ext i hi
  simp only [BitVec.getElem_extractLsb', BitVec.getLsbD_append]
  have h1 : ¬ 8 + i < 8 := by omega
  have h2 : 8 + i - 8 = i := by omega
  simp [h1, h2, BitVec.getLsbD_eq_getElem hi]

@[simp] theorem pack_high_low (w : Word) : pack (highByte w) (lowByte w) = w := by
  unfold lowByte highByte pack
  ext i hi
  simp only [BitVec.getElem_append, BitVec.getElem_extractLsb']
  split
  · simp [BitVec.getLsbD_eq_getElem hi]
  · have : 8 + (i - 8) = i := by omega
    simp [this, BitVec.getLsbD_eq_getElem hi]

theorem pack_inj {h l h' l' : Byte} : pack h l = pack h' l' ↔ h = h' ∧ l = l' := by
  constructor
  · intro e
    exact ⟨by simpa using congrArg highByte e, by simpa using congrArg lowByte e⟩
  · rintro ⟨rfl, rfl⟩; rfl

theorem pack_toNat (h l : Byte) : (pack h l).toNat = 256 * h.toNat + l.toNat := by
  unfold pack
  rw [BitVec.toNat_append, ← Nat.shiftLeft_add_eq_or_of_lt l.isLt, Nat.shiftLeft_eq]
  omega

@[simp] theorem withLow_low (w : Word) (x : Byte) : lowByte (withLow w x) = x := by simp [withLow]
@[simp] theorem withLow_high (w : Word) (x : Byte) : highByte (withLow w x) = highByte w := by simp [withLow]
@[simp] theorem withHigh_high (w : Word) (x : Byte) : highByte (withHigh w x) = x := by simp [withHigh]
@[simp] theorem withHigh_low (w : Word) (x : Byte) : lowByte (withHigh w x) = lowByte w := by simp [withHigh]

/-! ### Phases -/

@[simp] theorem phaseOf_code (p : Phase) : phaseOf p.code = some p := by cases p <;> rfl

theorem phaseOf_eq_some {c : Nibble} {p : Phase} : phaseOf c = some p ↔ c = p.code := by
  constructor
  · revert c p; decide
  · rintro rfl; exact phaseOf_code p

theorem phaseOf_eq_none {c : Nibble} : phaseOf c = none ↔ 13 ≤ c.toNat := by
  revert c; decide

/-! ### The checksum step -/

theorem ckstep_a_toNat (a b x : Byte) : (ckstep a b x).1.toNat = (a.toNat + x.toNat) % 255 := by
  simp only [ckstep, BitVec.toNat_ofNat]
  exact Nat.mod_eq_of_lt (by omega)

theorem ckstep_b_toNat (a b x : Byte) :
    (ckstep a b x).2.toNat = (b.toNat + (a.toNat + x.toNat) % 255) % 255 := by
  have h := ckstep_a_toNat a b x
  simp only [ckstep] at h ⊢
  rw [h, BitVec.toNat_ofNat]
  exact Nat.mod_eq_of_lt (by omega)

/-! ### The outcomes -/

theorem answerOk_next {s t : State} {v : Word} : answerOk s v = .next t ↔ t = s.answer (.ok v) := by
  simp [answerOk, eq_comm]

theorem answerIllegal_next {s t : State} : answerIllegal s = .next t ↔ t = s.answer .illegal := by
  simp [answerIllegal, eq_comm]

theorem answerRefused_next {s t : State} : answerRefused s = .next t ↔ t = s.answer .refused := by
  simp [answerRefused, eq_comm]

/-- A TX_SET has two outcomes and no other: refused while busy, or the write. -/
theorem txWrite_cases (set : Tx → Tx) (s : State) :
    (s.tx.busy = true ∧ txWrite set s = .next (s.answer .refused)) ∨
    (s.tx.busy = false ∧ txWrite set s = .next ((s.setTx (set s.tx)).answer (.ok 0))) := by
  unfold txWrite answerRefused answerOk
  cases s.tx.busy <;> simp

/-- TX_GO has two outcomes: refused while busy or with a bad header, or the start of a frame. -/
theorem execTxGo_cases (s : State) :
    ((s.tx.busy = true ∨ s.tx.codeOk = false) ∧ execTxGo s = .next (s.answer .refused)) ∨
    (s.tx.busy = false ∧ s.tx.codeOk = true ∧ execTxGo s = .next ((s.setTx s.tx.start).answer (.ok 0))) := by
  unfold execTxGo answerRefused answerOk
  cases s.tx.busy <;> cases s.tx.codeOk <;> simp

/-- Everything RX_PUSH can do to RX, phase by phase. -/
theorem Rx.push_cases {r r' : Rx} {x : Byte} (h : r.push x = some r') :
    (r.phase = 0 ∧ r' = r.magic 0x4D .magic1 x) ∨
    (r.phase = 1 ∧ r' = r.magic 0x45 .lenLo x) ∨
    (r.phase = 2 ∧ r' = Rx.goto { r with len := withLow r.len x } .lenHi) ∨
    (r.phase = 3 ∧ r' = Rx.goto { r with len := withHigh r.len x } .type) ∨
    (r.phase = 4 ∧ r' = r.takeType x) ∨
    (r.phase = 5 ∧ r' = r.takeClass x) ∨
    (r.phase = 6 ∧ r' = r.takeCmd x) ∨
    (r.phase = 7 ∧ r' = r.takePayload x) ∨
    (r.phase = 8 ∧ r' = Rx.goto { r with ckw := withLow r.ckw x } .ckHi) ∨
    (r.phase = 9 ∧ r' = r.takeCkHi x) ∨
    ((r.phase = 10 ∨ r.phase = 11) ∧ r' = { r with ovr := true }) := by
  unfold Rx.push at h
  cases hp : phaseOf r.phase with
  | none => simp [hp] at h
  | some p =>
    have hc := phaseOf_eq_some.mp hp
    rw [hp] at h
    cases p <;> simp [Phase.code] at h hc <;> subst h <;> simp [hc]

/-- RX_PUSH's operation answers in exactly the phases RX may hold. -/
theorem Rx.push_isSome (r : Rx) (x : Byte) : (r.push x).isSome = decide (r.phase.toNat ≤ 11) := by
  unfold Rx.push
  cases hp : phaseOf r.phase with
  | none =>
    have := phaseOf_eq_none.mp hp
    simp; omega
  | some p =>
    have hc := phaseOf_eq_some.mp hp
    rw [hc]; cases p <;> rfl

/-- RX_PUSH's outcomes: RX's new registers and their response, or the fault of a phase never held. -/
theorem execRxPush_cases (x : Byte) (s : State) :
    (∃ r, s.rx.push x = some r ∧ execRxPush x s = .next ((s.setRx r).answer (.ok (pushData s.rx.phase r)))) ∨
    (s.rx.push x = none ∧ execRxPush x s = .fault .rxPhaseNeverHeld) := by
  unfold execRxPush answerOk
  cases s.rx.push x <;> simp

/-- Everything TX_STEP can do, phase by phase. -/
theorem Tx.emit_cases (t : Tx) (x : Byte) :
    (t.phase = 0 ∧ t.emit x = .byte 0x4D (t.goto .magic1)) ∨
    (t.phase = 1 ∧ t.emit x = .byte 0x45 (t.goto .lenLo)) ∨
    (t.phase = 2 ∧ t.emit x = .byte (lowByte t.len) (t.goto .lenHi)) ∨
    (t.phase = 3 ∧ t.emit x = .byte (highByte t.len) (t.goto .type)) ∨
    (t.phase = 4 ∧ t.emit x = .byte t.mtype ((t.fold t.mtype).goto .class)) ∨
    (t.phase = 5 ∧ t.emit x = .byte t.mclass ((t.fold t.mclass).goto .cmd)) ∨
    (t.phase = 6 ∧ t.emit x = .byte t.cmd ((t.fold t.cmd).goto (if t.len == 0 then .ckLo else .payload))) ∨
    (t.phase = 7 ∧ t.emit x = .byte x (t.emitPayload x)) ∨
    (t.phase = 8 ∧ t.emit x = .byte t.a (t.goto .ckHi)) ∨
    (t.phase = 9 ∧ t.emit x = .byte t.b (t.goto .done)) ∨
    ((t.phase = 10 ∨ t.phase = 12) ∧ t.emit x = .nothing) ∨
    ((t.phase = 11 ∨ 13 ≤ t.phase.toNat) ∧ t.emit x = .neverHeld) := by
  unfold Tx.emit
  cases hp : phaseOf t.phase with
  | none => simp [phaseOf_eq_none.mp hp]
  | some p =>
    have hc := phaseOf_eq_some.mp hp
    cases p <;> simp [Phase.code] at hc <;> simp [hc]

/-- TX_STEP's outcomes: the emitted byte, REFUSED, or the fault of a phase never held. -/
theorem execTxStep_cases (x : Byte) (s : State) :
    (∃ b t, s.tx.emit x = .byte b t ∧ execTxStep x s = .next ((s.setTx t).answer (.ok (stepData s.tx.phase b)))) ∨
    (s.tx.emit x = .nothing ∧ execTxStep x s = .next (s.answer .refused)) ∨
    (s.tx.emit x = .neverHeld ∧ execTxStep x s = .fault .txPhaseNeverHeld) := by
  unfold execTxStep answerOk answerRefused
  cases s.tx.emit x <;> simp

/-! ### The step -/

/-- Everything a step can do, by what is on the port. -/
theorem step_cases (s : State) :
    (s.port.events = [] ∧ step s = .next s) ∨
    (∃ rest, s.port.events = .reset :: rest ∧ step s = .next s.resetEvent) ∨
    (∃ w rest i, s.port.events = .command w :: rest ∧ decode w = .ok i ∧ step s = exec i s) ∨
    (∃ w rest e, s.port.events = .command w :: rest ∧ decode w = .error e ∧ step s = .next (s.answer .illegal)) := by
  unfold step fetch fetchWord answerIllegal
  match h : s.port.events with
  | [] => simp
  | .reset :: rest => simp
  | .command w :: rest => cases hd : decode w <;> simp [hd]

end Sys2Proof.Machine
end

