-- ==== Sys2Proof/Laws/Frame.lean ====
section
/-! SUPPORT. The checksum of a list as a fold, and how it grows by one byte at the end: what the units' runs are compared with. -/

namespace Sys2Proof.Machine

/-- The accumulators after a list of bytes, from given ones. -/
def foldBytes (ab : Byte × Byte) (xs : List Byte) : Byte × Byte :=
  xs.foldl (fun ab x => ckstep ab.1 ab.2 x) ab

@[simp] theorem foldBytes_nil (ab : Byte × Byte) : foldBytes ab [] = ab := rfl

@[simp] theorem foldBytes_cons (ab : Byte × Byte) (x : Byte) (xs : List Byte) :
    foldBytes ab (x :: xs) = foldBytes (ckstep ab.1 ab.2 x) xs := rfl

theorem foldBytes_append (ab : Byte × Byte) (xs ys : List Byte) :
    foldBytes ab (xs ++ ys) = foldBytes (foldBytes ab xs) ys := List.foldl_append

theorem checksum_eq_foldBytes (xs : List Byte) :
    checksum xs = pack (foldBytes (0, 0) xs).2 (foldBytes (0, 0) xs).1 := rfl

end Sys2Proof.Machine
end

