-- ==== Sys2Proof/Laws/PerInstr.lean ====
section
/-! SUPPORT. The per-instruction family EncodedRow: the word the encoder writes matches its row of spec/opcode_table.json. -/

namespace Sys2Proof.Laws

/-- The row's `match` and `mask` in spec/opcode_table.json. -/
def tableRow : Instr → Word × Word
  | .nop => (0x0000, 0xFFFF)
  | .ckClr => (0x1000, 0xFFFF)
  | .ckUpd _ => (0x2000, 0xFF00)
  | .ckRd => (0x3000, 0xFFFF)
  | .rxRst => (0x4000, 0xFFFF)
  | .rxPush _ => (0x5000, 0xFF00)
  | .rxRdStatus => (0x6000, 0xFFFF)
  | .rxRdLen => (0x6100, 0xFFFF)
  | .rxRdType => (0x6200, 0xFFFF)
  | .rxRdClass => (0x6300, 0xFFFF)
  | .rxRdCmd => (0x6400, 0xFFFF)
  | .rxRdCkw => (0x6500, 0xFFFF)
  | .rxRdCkc => (0x6600, 0xFFFF)
  | .rxRdPcnt => (0x6700, 0xFFFF)
  | .txSetLenLo _ => (0x7100, 0xFF00)
  | .txSetType _ => (0x7200, 0xFF00)
  | .txSetClass _ => (0x7300, 0xFF00)
  | .txSetCmd _ => (0x7400, 0xFF00)
  | .txSetLenHi _ => (0x7900, 0xFF00)
  | .txGo => (0x8000, 0xFFFF)
  | .txStep _ => (0x9000, 0xFF00)
  | .txRdStatus => (0xA000, 0xFFFF)
  | .txRdLen => (0xA100, 0xFFFF)
  | .txRdType => (0xA200, 0xFFFF)
  | .txRdClass => (0xA300, 0xFFFF)
  | .txRdCmd => (0xA400, 0xFFFF)
  | .txRdCk => (0xA500, 0xFFFF)
  | .txRdPcnt => (0xA600, 0xFFFF)
  | .txRst => (0xB000, 0xFFFF)
  | .reserved _ => (0xC000, 0xC000)

/-- The encoded word, under its row's mask, is the row's match. -/
def EncodedRow.Statement (i : Instr) : Prop := encode i &&& (tableRow i).2 = (tableRow i).1

theorem EncodedRow.nop : EncodedRow.Statement .nop := by unfold EncodedRow.Statement; decide
theorem EncodedRow.ckClr : EncodedRow.Statement .ckClr := by unfold EncodedRow.Statement; decide
theorem EncodedRow.ckUpd : ∀ x : Byte, EncodedRow.Statement (.ckUpd x) := by unfold EncodedRow.Statement; decide +kernel
theorem EncodedRow.ckRd : EncodedRow.Statement .ckRd := by unfold EncodedRow.Statement; decide
theorem EncodedRow.rxRst : EncodedRow.Statement .rxRst := by unfold EncodedRow.Statement; decide
theorem EncodedRow.rxPush : ∀ x : Byte, EncodedRow.Statement (.rxPush x) := by unfold EncodedRow.Statement; decide +kernel
theorem EncodedRow.rxRdStatus : EncodedRow.Statement .rxRdStatus := by unfold EncodedRow.Statement; decide
theorem EncodedRow.rxRdLen : EncodedRow.Statement .rxRdLen := by unfold EncodedRow.Statement; decide
theorem EncodedRow.rxRdType : EncodedRow.Statement .rxRdType := by unfold EncodedRow.Statement; decide
theorem EncodedRow.rxRdClass : EncodedRow.Statement .rxRdClass := by unfold EncodedRow.Statement; decide
theorem EncodedRow.rxRdCmd : EncodedRow.Statement .rxRdCmd := by unfold EncodedRow.Statement; decide
theorem EncodedRow.rxRdCkw : EncodedRow.Statement .rxRdCkw := by unfold EncodedRow.Statement; decide
theorem EncodedRow.rxRdCkc : EncodedRow.Statement .rxRdCkc := by unfold EncodedRow.Statement; decide
theorem EncodedRow.rxRdPcnt : EncodedRow.Statement .rxRdPcnt := by unfold EncodedRow.Statement; decide
theorem EncodedRow.txSetLenLo : ∀ x : Byte, EncodedRow.Statement (.txSetLenLo x) := by unfold EncodedRow.Statement; decide +kernel
theorem EncodedRow.txSetType : ∀ x : Byte, EncodedRow.Statement (.txSetType x) := by unfold EncodedRow.Statement; decide +kernel
theorem EncodedRow.txSetClass : ∀ x : Byte, EncodedRow.Statement (.txSetClass x) := by unfold EncodedRow.Statement; decide +kernel
theorem EncodedRow.txSetCmd : ∀ x : Byte, EncodedRow.Statement (.txSetCmd x) := by unfold EncodedRow.Statement; decide +kernel
theorem EncodedRow.txSetLenHi : ∀ x : Byte, EncodedRow.Statement (.txSetLenHi x) := by unfold EncodedRow.Statement; decide +kernel
theorem EncodedRow.txGo : EncodedRow.Statement .txGo := by unfold EncodedRow.Statement; decide
theorem EncodedRow.txStep : ∀ x : Byte, EncodedRow.Statement (.txStep x) := by unfold EncodedRow.Statement; decide +kernel
theorem EncodedRow.txRdStatus : EncodedRow.Statement .txRdStatus := by unfold EncodedRow.Statement; decide
theorem EncodedRow.txRdLen : EncodedRow.Statement .txRdLen := by unfold EncodedRow.Statement; decide
theorem EncodedRow.txRdType : EncodedRow.Statement .txRdType := by unfold EncodedRow.Statement; decide
theorem EncodedRow.txRdClass : EncodedRow.Statement .txRdClass := by unfold EncodedRow.Statement; decide
theorem EncodedRow.txRdCmd : EncodedRow.Statement .txRdCmd := by unfold EncodedRow.Statement; decide
theorem EncodedRow.txRdCk : EncodedRow.Statement .txRdCk := by unfold EncodedRow.Statement; decide
theorem EncodedRow.txRdPcnt : EncodedRow.Statement .txRdPcnt := by unfold EncodedRow.Statement; decide
theorem EncodedRow.txRst : EncodedRow.Statement .txRst := by unfold EncodedRow.Statement; decide
theorem EncodedRow.reserved : ∀ x : BitVec 14, EncodedRow.Statement (.reserved x) := by unfold EncodedRow.Statement; decide +kernel

end Sys2Proof.Laws
end

