-- ==== Sys2Proof/Laws/Safety.lean ====
section
/-! SUPPORT. The words of Safety.lean, for an answered state and for a run: small lemmas that later proofs cite. -/

namespace Sys2Proof.Machine

theorem answer_returned (s : State) (r : Response) : Returned s (s.answer r) r := ⟨rfl, rfl⟩
theorem setCke_answer_returned (s : State) (c : Cke) (r : Response) : Returned s ((s.setCke c).answer r) r := ⟨rfl, rfl⟩
theorem setRx_answer_returned (s : State) (x : Rx) (r : Response) : Returned s ((s.setRx x).answer r) r := ⟨rfl, rfl⟩
theorem setTx_answer_returned (s : State) (t : Tx) (r : Response) : Returned s ((s.setTx t).answer r) r := ⟨rfl, rfl⟩
theorem answer_sameBlock (s : State) (r : Response) : SameBlock s (s.answer r) := ⟨rfl, rfl, rfl⟩

/-- A command has exactly one response between two states. -/
theorem returned_unique {s t : State} {r r' : Response} (h : Returned s t r) (h' : Returned s t r') : r = r' := by
  have e := h.1.symm.trans h'.1
  simpa using e

@[simp] theorem execAll_nil (s : State) : execAll [] s = .next s := rfl

theorem execAll_cons_next {i : Instr} {is : List Instr} {s t : State} (h : exec i s = .next t) :
    execAll (i :: is) s = execAll is t := by
  simp [execAll, h]

theorem execAll_append_next {is js : List Instr} {s t : State} (h : execAll is s = .next t) :
    execAll (is ++ js) s = execAll js t := by
  induction is generalizing s with
  | nil => cases h; rfl
  | cons i is ih =>
    simp only [List.cons_append, execAll] at h ⊢
    cases he : exec i s with
    | next u => rw [he] at h; exact ih h
    | fault r => simp [he] at h
    | refused r => simp [he] at h

end Sys2Proof.Machine
end

