-- ==== Sys2Proof/Tests/Slice0.lean ====
section
/-! SUPPORT. Tests of the model. The expected values are the spec's own: the rules' examples and the vectors of 95_test_vectors.md; each comment names them. Then one witness for every statement that has hypotheses. -/

namespace Sys2Proof.Tests

open Sys2Proof Sys2Proof.Machine

/-! ### Decoding, one word per constructor, written out from 30_encoding.md R90 to R96 -/

theorem test_decode_nop : decode 0x0000 = .ok .nop := by rfl
theorem test_decode_ckClr : decode 0x1000 = .ok .ckClr := by rfl
theorem test_decode_ckUpd : decode 0x20FE = .ok (.ckUpd 0xFE) := by rfl
theorem test_decode_ckRd : decode 0x3000 = .ok .ckRd := by rfl
theorem test_decode_rxRst : decode 0x4000 = .ok .rxRst := by rfl
theorem test_decode_rxPush : decode 0x504D = .ok (.rxPush 0x4D) := by rfl
theorem test_decode_rxRdStatus : decode 0x6000 = .ok .rxRdStatus := by rfl
theorem test_decode_rxRdLen : decode 0x6100 = .ok .rxRdLen := by rfl
theorem test_decode_rxRdType : decode 0x6200 = .ok .rxRdType := by rfl
theorem test_decode_rxRdClass : decode 0x6300 = .ok .rxRdClass := by rfl
theorem test_decode_rxRdCmd : decode 0x6400 = .ok .rxRdCmd := by rfl
theorem test_decode_rxRdCkw : decode 0x6500 = .ok .rxRdCkw := by rfl
theorem test_decode_rxRdCkc : decode 0x6600 = .ok .rxRdCkc := by rfl
theorem test_decode_rxRdPcnt : decode 0x6700 = .ok .rxRdPcnt := by rfl
theorem test_decode_txSetLenLo : decode 0x7102 = .ok (.txSetLenLo 0x02) := by rfl
theorem test_decode_txSetType : decode 0x720F = .ok (.txSetType 0x0F) := by rfl
theorem test_decode_txSetClass : decode 0x7304 = .ok (.txSetClass 0x04) := by rfl
theorem test_decode_txSetCmd : decode 0x7481 = .ok (.txSetCmd 0x81) := by rfl
theorem test_decode_txSetLenHi : decode 0x7980 = .ok (.txSetLenHi 0x80) := by rfl
theorem test_decode_txGo : decode 0x8000 = .ok .txGo := by rfl
theorem test_decode_txStep : decode 0x90FF = .ok (.txStep 0xFF) := by rfl
theorem test_decode_txRdStatus : decode 0xA000 = .ok .txRdStatus := by rfl
theorem test_decode_txRdLen : decode 0xA100 = .ok .txRdLen := by rfl
theorem test_decode_txRdType : decode 0xA200 = .ok .txRdType := by rfl
theorem test_decode_txRdClass : decode 0xA300 = .ok .txRdClass := by rfl
theorem test_decode_txRdCmd : decode 0xA400 = .ok .txRdCmd := by rfl
theorem test_decode_txRdCk : decode 0xA500 = .ok .txRdCk := by rfl
theorem test_decode_txRdPcnt : decode 0xA600 = .ok .txRdPcnt := by rfl
theorem test_decode_txRst : decode 0xB000 = .ok .txRst := by rfl
theorem test_decode_reserved : decode 0xFFFE = .ok (.reserved 0x3FFE) := by rfl
theorem test_tableWord_drops_bits_above_nbits : decodeTableWord 8 0x12000 = some .nop := by decide

/-! ### Words R97 refuses, one for each clause, refused by the decoder by name and by `legalWord` -/

theorem test_illegal_op : legalWord 0xC000 = false ∧ legalWord 0xFFFF = false := by decide
theorem test_illegal_rxrd_sel : legalWord 0x6800 = false ∧ decode 0x6800 = .error .selReserved := ⟨by decide, rfl⟩
theorem test_illegal_txrd_sel : legalWord 0xA700 = false ∧ decode 0xA700 = .error .selReserved := ⟨by decide, rfl⟩
theorem test_illegal_txset_sel : legalWord 0x7500 = false ∧ decode 0x7A00 = .error .selReserved := ⟨by decide, rfl⟩
theorem test_illegal_read_data : legalWord 0x6001 = false ∧ decode 0xA001 = .error .dataNotZero := ⟨by decide, rfl⟩
theorem test_illegal_no_operand : legalWord 0x0001 = false ∧ legalWord 0x0100 = false ∧ decode 0x1001 = .error .dataNotZero :=
  ⟨by decide, by decide, rfl⟩
theorem test_illegal_byte_operand_sel : legalWord 0x2100 = false ∧ decode 0x2100 = .error .selNotZero := ⟨by decide, rfl⟩
theorem test_illegal_fields_each_refused :
    illegalFields 0xC 0 0 = true ∧ illegalFields 6 8 0 = true ∧ illegalFields 10 7 0 = true ∧ illegalFields 7 0 0 = true
      ∧ illegalFields 6 0 1 = true ∧ illegalFields 11 1 0 = true ∧ illegalFields 9 1 0 = true := by decide

/-! ### Frames that are not well-formed (R180), one for each check -/

theorem test_frame_bad_type : (TxFrame.mk 0x05 0x00 0x00 []).wellFormed = false := by decide
theorem test_frame_bad_class : (TxFrame.mk 0x00 0x09 0x00 []).wellFormed = false := by decide
theorem test_frame_too_long (n : Nat) (h : n = 65536) : (TxFrame.mk 0x00 0x00 0x00 (List.replicate n 0x00)).wellFormed = false := by
  simp [TxFrame.wellFormed]; omega
theorem test_frame_ok : (TxFrame.mk 0x0F 0x08 0xFF [0xFF]).wellFormed = true := by decide

/-! ### Single commands -/

/-- The response a command returned last. -/
def responseOf (o : Host.Outcome State Fault Refusal) : Option Response :=
  match o with
  | .next t => t.port.responses.getLast?
  | .fault _ => none
  | .refused _ => none

/-- One field of the state after a command. -/
def after {α : Type} (f : State → α) (o : Host.Outcome State Fault Refusal) : Option α :=
  match o with
  | .next t => some (f t)
  | .fault _ => none
  | .refused _ => none

/-- CKE holding given accumulators. -/
def ckeAt (a b : Byte) : State := { State.reset with cke := { a := a, b := b } }

/-- RX in a phase, its other fields as after reset. -/
def rxAt (q : Nibble) : State := { State.reset with rx := { Rx.reset with phase := q } }

/-- TX in a phase, its other fields as after reset. -/
def txAt (q : Nibble) : State := { State.reset with tx := { Tx.reset with phase := q } }

/-- RX after the frame W2, `4d45010000040101060f`. -/
def rxW2 : State :=
  { State.reset with
    rx := { Rx.reset with phase := 10, len := 1, mclass := 0x04, cmd := 0x01, ckw := 0x0F06, a := 0x06, b := 0x0F, pcnt := 1 } }

/-- TX in a phase of the frame W2, its checksum accumulated. -/
def txW2 (q : Nibble) : State :=
  { State.reset with
    tx := { phase := q, len := 1, mtype := 0x00, mclass := 0x04, cmd := 0x01, a := 0x06, b := 0x0F, pcnt := 1 } }

/-- TX with the last of two payload bytes to emit. -/
def txLastPayload : State := (txW2 7).setTx { (txW2 7).tx with len := 2 }

/-- RX waiting for the last byte of W1. -/
def rxW1last : State :=
  { State.reset with rx := { Rx.reset with phase := 9, mclass := 0x04, ckw := 0x0004, a := 0x04, b := 0x08 } }

-- R220
theorem test_nop : responseOf (exec .nop rxW2) = some (.ok 0x0000) := by decide
-- R124's example
theorem test_ckClr : after (·.cke) (exec .ckClr (ckeAt 0x05 0x0E)) = some { a := 0x00, b := 0x00 } := by decide
-- R125's example; and from (FE,FE) by hand from R121, B = 0xFE + 0xFE - 0xFF = 0xFD, where 95 §2.1 misprints 0xFB (log entry 9)
theorem test_ckUpd : responseOf (exec (.ckUpd 0x00) (ckeAt 0x04 0x04)) = some (.ok 0x0804) := by decide
theorem test_ckUpd_ff : responseOf (exec (.ckUpd 0xFF) (ckeAt 0xFE 0xFE)) = some (.ok 0xFDFE) := by decide
-- R126's example
theorem test_ckRd : responseOf (exec .ckRd (ckeAt 0x04 0x08)) = some (.ok 0x0804) := by decide
-- R143
theorem test_rxRst : after (·.rx.status) (exec .rxRst rxW2) = some 0x0000 := by decide
-- 95 X1, first byte; P5 step 14
theorem test_rxPush_bad_magic : responseOf (exec (.rxPush 0x4E) State.reset) = some (.ok 0x0B82) := by decide
theorem test_rxPush_bad_checksum : responseOf (exec (.rxPush 0x09) rxW1last) = some (.ok 0x9AA1) := by decide
-- R157's examples and W2
theorem test_rxRdStatus : responseOf (exec .rxRdStatus rxW2) = some (.ok 0x0A01) := by decide
theorem test_rxRdLen : responseOf (exec .rxRdLen rxW2) = some (.ok 0x0001) := by decide
theorem test_rxRdType : responseOf (exec .rxRdType rxW2) = some (.ok 0x0000) := by decide
theorem test_rxRdClass : responseOf (exec .rxRdClass rxW2) = some (.ok 0x0004) := by decide
theorem test_rxRdCmd : responseOf (exec .rxRdCmd rxW2) = some (.ok 0x0001) := by decide
theorem test_rxRdCkw : responseOf (exec .rxRdCkw rxW2) = some (.ok 0x0F06) := by decide
theorem test_rxRdCkc : responseOf (exec .rxRdCkc rxW2) = some (.ok 0x0F06) := by decide
theorem test_rxRdPcnt : responseOf (exec .rxRdPcnt rxW2) = some (.ok 0x0001) := by decide
-- R183: which byte of which register; R183's example of a refusal
theorem test_txSetLenLo : after (·.tx.len) (exec (.txSetLenLo 0x02) (txW2 12)) = some 0x0002 := by decide
theorem test_txSetLenHi : after (·.tx.len) (exec (.txSetLenHi 0x02) (txW2 10)) = some 0x0201 := by decide
theorem test_txSetType : after (·.tx.mtype) (exec (.txSetType 0x05) State.reset) = some 0x05 := by decide
theorem test_txSetClass : after (·.tx.mclass) (exec (.txSetClass 0x04) State.reset) = some 0x04 := by decide
theorem test_txSetClass_busy : responseOf (exec (.txSetClass 0x04) (txAt 4)) = some .refused := by decide
theorem test_txSetCmd : after (·.tx.cmd) (exec (.txSetCmd 0x81) State.reset) = some 0x81 := by decide
-- R184's example (95 T2), and a start from DONE
theorem test_txGo_bad_type : responseOf (exec .txGo { State.reset with tx := { Tx.reset with mtype := 0x05 } }) = some .refused := by decide
theorem test_txGo_again : after (fun s => (s.tx.phase, s.tx.pcnt)) (exec .txGo (txW2 10)) = some (0, 0) := by decide
-- R185's example: the ninth byte; 95 T1: one step too many
theorem test_txStep_ckLo : responseOf (exec (.txStep 0xAA) (txW2 8)) = some (.ok 0x0806) := by decide
theorem test_txStep_done : responseOf (exec (.txStep 0x00) (txW2 10)) = some .refused := by decide
-- R186's examples and W2
theorem test_txRdStatus : responseOf (exec .txRdStatus (txW2 10)) = some (.ok 0x0A05) := by decide
theorem test_txRdLen : responseOf (exec .txRdLen (txW2 10)) = some (.ok 0x0001) := by decide
theorem test_txRdType : responseOf (exec .txRdType (txW2 10)) = some (.ok 0x0000) := by decide
theorem test_txRdClass : responseOf (exec .txRdClass (txW2 10)) = some (.ok 0x0004) := by decide
theorem test_txRdCmd : responseOf (exec .txRdCmd (txW2 10)) = some (.ok 0x0001) := by decide
theorem test_txRdCk : responseOf (exec .txRdCk (txW2 10)) = some (.ok 0x0F06) := by decide
theorem test_txRdPcnt : responseOf (exec .txRdPcnt (txW2 10)) = some (.ok 0x0001) := by decide
-- R182's example
theorem test_txRst : after (·.tx.status) (exec .txRst (txW2 7)) = some 0x0C04 := by decide
-- R221's examples, one by a reserved op and one by a defined op
theorem test_reserved : responseOf (exec (.reserved 0x0123) State.reset) = some .illegal := by decide
theorem test_malformed_word_is_illegal : responseOf (step ((ckeAt 0x05 0x0E).placeCommand 0x1001)) = some .illegal := by decide
-- R260
theorem test_reset_event : after (·.rx) (step { rxW2 with port := { events := [.reset], responses := [] } }) = some Rx.reset := by decide
-- R91
theorem test_response_words : (Response.ok 0x0804).word = 0x00804 ∧ Response.illegal.word = 0x10000 ∧ Response.refused.word = 0x20000 := by decide

/-! ### The pure functions and the assembler -/

-- 95 K6, K8, K11
theorem test_checksum : checksum [0xFE, 0x01] = 0xFE00 ∧ checksum [0x02, 0x01] = 0x0503
    ∧ checksum [0x61, 0x62, 0x63, 0x64, 0x65, 0x66] = 0x2057 := by decide
-- 95 W2
theorem test_encodeFrame : encodeFrame { mtype := 0x00, mclass := 0x04, cmd := 0x01, payload := [0x01] }
    = [0x4D, 0x45, 0x01, 0x00, 0x00, 0x04, 0x01, 0x01, 0x06, 0x0F] := by decide
-- 95 D1, D4, D8, D11
theorem test_decodeFrame_errors : decodeFrame [] = .error .truncatedPayload
    ∧ decodeFrame [0x4D, 0x46] = .error .malformedFrame
    ∧ decodeFrame [0x4D, 0x45, 0x00, 0x00, 0x00, 0x09, 0x00, 0x00] = .error .unresolvedCode
    ∧ decodeFrame [0x4D, 0x45, 0x00, 0x00, 0x00, 0x04, 0x00, 0x04, 0x09] = .error .checksumMismatch := by decide
-- 95 D12: two bytes after the frame are ignored
theorem test_decodeFrame_trailing : decodeFrame [0x4D, 0x45, 0x00, 0x00, 0x00, 0x08, 0x00, 0x08, 0x10, 0x00, 0x00]
    = .frame { length := 0, mtype := 0x00, mclass := 0x08, cmd := 0x00, commandKnown := false, payload := [], checksum := 0x1008 } 9 := by decide
-- R101's example, `.word`, and 95 T5 by its pseudo-instruction
theorem test_assemble : assemble ["TX_SET CLASS, 0x04 ; a comment", ".word 0xC000", "TX_STEP", "RX_RD CKC"]
    = some [0x7304, 0xC000, 0x9000, 0x6600] := by decide
theorem test_assemble_frame : assemble ["TX_FRAME 0x0F, 4, 1, ff"]
    = some [0x720F, 0x7304, 0x7401, 0x7101, 0x7900, 0x8000, 0x9000, 0x9000, 0x9000, 0x9000, 0x9000, 0x9000, 0x9000,
        0x90FF, 0x9000, 0x9000] := by decide
theorem test_assemble_refuses : assemble ["CK_UPD 256"] = none ∧ assemble ["RX_RD CK"] = none ∧ assemble ["TX_SET CMD"] = none := by decide

/-! ### A witness for every statement that has hypotheses -/

/-- The word is on the port of a state, and has the fields a clause asks for: for ops whose fields must be 0, once by `sel` alone and once by `data` alone. -/
def IllegalWitness (op : Nibble) (w : Word) : Prop :=
  opField w = op ∧ (selField w ≠ 0 ∨ dataField w ≠ 0) ∧ OnPort (State.reset.placeCommand w) w

theorem witness_ResetEventResetsEveryUnit :
    ({ rxW2 with port := { events := [.reset], responses := [] } } : State).port.events.head? = some .reset := rfl
theorem witness_AccumulatorsNeverHoldFF :
    (∀ v ∈ [State.reset.cke.a, State.reset.cke.b, State.reset.rx.a, State.reset.rx.b, State.reset.tx.a, State.reset.tx.b], v ≠ 0xFF)
      ∧ ∃ t, step (State.reset.placeCommand 0x20FE) = .next t ∧ t.cke.a = 0xFE := ⟨by decide, _, rfl, rfl⟩
theorem witness_StepKeepsRanges :
    Inv (rxW1last.placeCommand 0x5008) ∧ Inv (txW2 9) ∧ ∃ t, step (rxW1last.placeCommand 0x5008) = .next t ∧ t.rx.phase = 10 :=
  ⟨by decide, by decide, _, rfl, rfl⟩
theorem witness_StepKeepsRxFlagsTrue :
    rxW1last.rx.FlagsAgree ∧ ∃ t, step (rxW1last.placeCommand 0x5009) = .next t ∧ t.rx.ckerr = true := ⟨by decide, _, rfl, rfl⟩
theorem witness_StepNeverStops : Inv State.reset ∧ Inv (rxW1last.placeCommand 0x5008) := ⟨by decide, by decide⟩
theorem witness_TxCountNeverExceedsLength :
    Inv ((txW2 10).placeCommand 0x7100) ∧ (txW2 10).tx.pcnt.toNat ≤ (txW2 10).tx.len.toNat
      ∧ ∃ t, step ((txW2 10).placeCommand 0x7100) = .next t := ⟨by decide, by decide, _, rfl⟩
/-- The last payload step of a frame of two bytes; TX_SET LEN_LO, 0 in DONE, which leaves the count at the finished frame's length; the step that starts a frame of another length; and the step that completes one. -/
theorem witness_TxCountStaysWithinItsFrame :
    (Inv (txLastPayload.placeCommand 0x9001) ∧ txLastPayload.tx.CountWithin 2
        ∧ ∃ t, step (txLastPayload.placeCommand 0x9001) = .next t ∧ t.tx.pcnt = 2)
      ∧ (Inv ((txW2 10).placeCommand 0x7100) ∧ (txW2 10).tx.CountWithin (txW2 10).tx.len
        ∧ ∃ t, step ((txW2 10).placeCommand 0x7100) = .next t ∧ t.tx.CountWithin (txW2 10).tx.len ∧ t.tx.len = 0)
      ∧ (Inv (State.reset.placeCommand 0x8000) ∧ State.reset.tx.CountWithin 0xFFFF
        ∧ ∃ t, step (State.reset.placeCommand 0x8000) = .next t ∧ t.tx.busy = true)
      ∧ (Inv ((txW2 9).placeCommand 0x9000) ∧ (txW2 9).tx.CountWithin (txW2 9).tx.len
        ∧ ∃ t, step ((txW2 9).placeCommand 0x9000) = .next t ∧ t.tx.phase = 10) :=
  ⟨⟨by decide, by decide, _, rfl, by decide⟩, ⟨by decide, by decide, _, rfl, by decide, by decide⟩,
    ⟨by decide, by decide, _, rfl, by decide⟩, by decide, by decide, _, rfl, by decide⟩
theorem witness_StepRunsTheDecodedInstruction :
    OnPort (State.reset.placeCommand 0x504D) 0x504D ∧ decode 0x504D = .ok (.rxPush 0x4D) := ⟨rfl, rfl⟩
theorem witness_PlacedWordIsRunNext : decodeTableWord 16 0x20FE = some (.ckUpd 0xFE) := rfl
theorem witness_IdleBlockHoldsItsState : rxW2.port.events = [] := rfl
theorem witness_EncodeOfDecode : decode 0x7981 = .ok (.txSetLenHi 0x81) := rfl
theorem witness_IllegalWordsExactly : encode .ckRd = 0x3000 := by decide
theorem witness_IllegalWordsHaveNoEffect :
    (¬ ∃ i, decode 0x1001 = .ok i ∧ i.isCommand = true) ∧ OnPort (rxW2.placeCommand 0x1001) 0x1001
      ∧ 0xC ≤ (opField 0xC000).toNat ∧ OnPort (rxW2.placeCommand 0xC000) 0xC000 ∧ 0xC ≤ (opField 0xFFFF).toNat :=
  ⟨(fun ⟨_, h, _⟩ => nomatch h), rfl, by decide, rfl, by decide⟩
theorem witness_ResponseWordFormat :
    OnPort ((txAt 4).placeCommand 0x8000) 0x8000
      ∧ ∃ t, step ((txAt 4).placeCommand 0x8000) = .next t ∧ Returned ((txAt 4).placeCommand 0x8000) t .refused :=
  ⟨rfl, _, rfl, rfl, rfl⟩
theorem witness_RefusedExactlyWhen :
    (∃ t, exec (.txSetCmd 0) (txAt 9) = .next t ∧ Returned (txAt 9) t .refused)
      ∧ (∃ t, exec .txGo (txAt 0) = .next t ∧ Returned (txAt 0) t .refused)
      ∧ (∃ t, exec (.txStep 0) (txAt 12) = .next t ∧ Returned (txAt 12) t .refused)
      ∧ ∃ t, exec (.txStep 0) (txAt 9) = .next t ∧ Returned (txAt 9) t (.ok 0x0900) :=
  ⟨⟨_, rfl, rfl, rfl⟩, ⟨_, rfl, rfl, rfl⟩, ⟨_, rfl, rfl, rfl⟩, ⟨_, rfl, rfl, rfl⟩⟩
theorem witness_AccessMatrix :
    (∃ t, exec (.rxPush 0x12) (rxAt 2) = .next t ∧ t.rx.len = 0x0012)
      ∧ (∃ t, exec .rxRdLen rxW2 = .next t) ∧ ((Instr.rxRdLen).isRead = true)
      ∧ OnPort ((txAt 4).placeCommand 0x8000) 0x8000
      ∧ ∃ t, step ((txAt 4).placeCommand 0x8000) = .next t ∧ Returned ((txAt 4).placeCommand 0x8000) t .refused :=
  ⟨⟨_, rfl, rfl⟩, ⟨_, rfl⟩, rfl, rfl, ⟨_, rfl, rfl, rfl⟩⟩
theorem witness_UnitsAreIndependent :
    (Instr.rxPush 0x4D).unit = some .rx ∧ State.reset.rx = (ckeAt 0x05 0x0E).rx
      ∧ ∃ t, exec (.rxPush 0x4D) State.reset = .next t ∧ Returned State.reset t (.ok 0x0100) := ⟨rfl, rfl, _, rfl, rfl, rfl⟩
theorem witness_RxFlagsAreSticky :
    Instr.rxPush 0x00 ≠ .rxRst
      ∧ ∃ t, exec (.rxPush 0x00) { rxAt 11 with rx := { Rx.reset with phase := 11, magerr := true } } = .next t
        ∧ t.rx.magerr = true := ⟨by decide, _, rfl, rfl⟩
theorem witness_ReadsDetermineTheBlock :
    ∀ (i : Instr) (v : Word), i.isRead = true →
      (ReadsAs i rxW2 v ↔ ReadsAs i { rxW2 with port := { events := [], responses := [] } } v) := fun _ _ _ => Iff.rfl
theorem witness_ChecksumStepForms : (0xFE : Byte).toNat ≤ 0xFE ∧ (0x00 : Byte).toNat ≤ 0xFE := by decide
theorem witness_NopDoesNothing : IllegalWitness 0x0 0x0001 ∧ IllegalWitness 0x0 0x0100 := by
  unfold IllegalWitness; decide
theorem witness_CkClrClearsCke : IllegalWitness 0x1 0x1001 ∧ IllegalWitness 0x1 0x1100 := by
  unfold IllegalWitness; decide
theorem witness_CkUpdFoldsOneByte : IllegalWitness 0x2 0x2100 ∧ selField 0x2100 ≠ 0 := by
  unfold IllegalWitness; decide
theorem witness_CkRdReadsCke : IllegalWitness 0x3 0x3001 ∧ IllegalWitness 0x3 0x3100 := by
  unfold IllegalWitness; decide
theorem witness_RxRstArmsRx : IllegalWitness 0x4 0x4001 ∧ IllegalWitness 0x4 0x4100 := by
  unfold IllegalWitness; decide
theorem witness_RxPushUpdatesEachRegister :
    (IllegalWitness 0x5 0x5100 ∧ selField 0x5100 ≠ 0)
      ∧ ∀ q ∈ ([0, 1, 2, 3, 4, 5, 6, 7, 8, 9, 10, 11] : List Nibble), (rxAt q).rx.phase.toNat ≤ 11 := by
  unfold IllegalWitness; decide
theorem witness_MagicMismatchStopsRx :
    ((rxAt 0).rx.phase = 0 ∧ (0x4E : Byte) ≠ 0x4D) ∧ ((rxAt 1).rx.phase = 1 ∧ (0x46 : Byte) ≠ 0x45) := by decide
theorem witness_PushAfterTheFrameIsDropped : (rxAt 10).rx.phase = 10 ∧ (rxAt 11).rx.phase = 11 := by decide
theorem witness_RxTakesAWholeFrame :
    ([] : List Byte).length ≤ 65535 ∧ (List.replicate 65535 (0xFF : Byte)).length ≤ 65535 :=
  ⟨Nat.zero_le _, Nat.le_of_eq List.length_replicate⟩
theorem witness_RxRealisesDecode : State.reset.rx = State.reset.rx := rfl
theorem witness_TwoPhaseRead :
    ([0x04, 0x08] : List Byte).length ≤ (0x00#8 ++ 0x00#8 : Word).toNat + 2
      ∧ ([] : List Byte).length ≤ (0xFF#8 ++ 0xFF#8 : Word).toNat + 2 := by decide
theorem witness_RxRdReadsEachRegister :
    (opField 0x6800 = 0x6 ∧ 8 ≤ (selField 0x6800).toNat) ∧ (opField 0x6001 = 0x6 ∧ dataField 0x6001 ≠ 0) := by decide
theorem witness_KnownFollowsTheCommandSets : (0x08 : Byte) ≠ 0x00 ∧ (0x08 : Byte) ≠ 0x04 := by decide
theorem witness_CmdunkFollowsTheTaxonomy :
    ((rxAt 6).rx.phase = 6 ∧ (rxAt 6).rx.cmdunk = false)
      ∧ (rxAt 7).rx.phase ≠ 6 ∧ ∃ t, exec (.rxPush 0x00) (rxAt 7) = .next t := ⟨by decide, by decide, _, rfl⟩
theorem witness_TxRstClearsTx : IllegalWitness 0xB 0xB001 ∧ IllegalWitness 0xB 0xB100 := by
  unfold IllegalWitness; decide
theorem witness_TxSetWritesOneByte :
    (opField 0x7000 = 0x7 ∧ (selField 0x7000).toNat ∉ [1, 2, 3, 4, 9])
      ∧ ((Instr.txSetCmd 0).isTxSet = true ∧ (txAt 9).tx.phase.toNat ≤ 9 ∧ (txAt 0).tx.phase.toNat ≤ 9)
      ∧ 9 < (txAt 10).tx.phase.toNat ∧ 9 < (txAt 12).tx.phase.toNat := by decide
theorem witness_TxGoStartsAFrame :
    IllegalWitness 0x8 0x8001 ∧ IllegalWitness 0x8 0x8100 ∧ (txAt 9).tx.phase.toNat ≤ 9
      ∧ ¬ (((0x0E : Byte) = 0x00 ∨ (0x0E : Byte) = 0x0F) ∧ (0x08 : Byte).toNat ≤ 0x08)
      ∧ ¬ (((0x0F : Byte) = 0x00 ∨ (0x0F : Byte) = 0x0F) ∧ (0x09 : Byte).toNat ≤ 0x08)
      ∧ 9 < (txAt 10).tx.phase.toNat ∧ (txAt 10).tx.mtype = 0x00 ∧ (txAt 10).tx.mclass.toNat ≤ 0x08 := by
  unfold IllegalWitness; decide
theorem witness_TxStepEmitsTheNextByte :
    (IllegalWitness 0x9 0x9100 ∧ selField 0x9100 ≠ 0) ∧ (txAt 10).tx.phase = 10 ∧ (txAt 12).tx.phase = 12
      ∧ ∀ q ∈ ([0, 1, 2, 3, 4, 5, 6, 7, 8, 9] : List Nibble), (txAt q).tx.phase.toNat ≤ 9 := by
  unfold IllegalWitness; decide
theorem witness_TxStepIgnoresDataOutsidePayload : (txAt 6).tx.phase ≠ 7 ∧ (txAt 8).tx.phase ≠ 7 := by decide
theorem witness_TxRdReadsEachRegister :
    (opField 0xA700 = 0xA ∧ 7 ≤ (selField 0xA700).toNat) ∧ (opField 0xA001 = 0xA ∧ dataField 0xA001 ≠ 0) := by decide
theorem witness_FrameTakesNinePlusLengthSteps :
    ∃ g, exec .txGo (txW2 10) = .next g ∧ g.tx.phase = 0 ∧ (txW2 10).tx.phase.toNat > 9
      ∧ (List.replicate 10 (0x00 : Byte)).length = 9 + (txW2 10).tx.len.toNat
      ∧ (List.replicate 9 (0x00 : Byte)).length < 9 + (txW2 10).tx.len.toNat := ⟨_, rfl, by decide, by decide, by decide, by decide⟩
theorem witness_EncodedFrameLayout : (TxFrame.mk 0x0F 0x08 0xFF []).wellFormed = true := by decide
theorem witness_TxRealisesEncode :
    (TxFrame.mk 0x00 0x04 0x01 [0x01]).wellFormed = true ∧ (txAt 12).tx.phase = 12 ∧ (txAt 10).tx.phase = 10
      ∧ SendsFrame (TxFrame.mk 0x00 0x04 0x01 [0x01]) (txFrameInstrs 0x00 0x04 0x01 [0x01]) :=
  ⟨by decide, rfl, rfl, txHdrInstrs 0x00 0x04 0x01 1, List.replicate 7 0, List.replicate 2 0, List.Perm.refl _, rfl, rfl, rfl⟩
theorem witness_FrameRoundTrip : (TxFrame.mk 0x0F 0x08 0xFF [0xFF]).wellFormed = true := by decide
theorem witness_UnitRoundTrip :
    (TxFrame.mk 0x0F 0x04 0x01 []).wellFormed = true ∧ (txAt 12).tx.phase = 12 ∧ (txAt 10).tx.phase = 10
      ∧ SendsFrame (TxFrame.mk 0x0F 0x04 0x01 []) (txFrameInstrs 0x0F 0x04 0x01 []) :=
  ⟨by decide, rfl, rfl, txHdrInstrs 0x0F 0x04 0x01 0, List.replicate 7 0, List.replicate 2 0, List.Perm.refl _, rfl, rfl, rfl⟩

end Sys2Proof.Tests
end

section
/-! PROOFS. 00_scope.md: what a step runs (R5), what is settled of the open parameters (R10), and how a received frame ends (R17). -/

namespace Sys2Proof

theorem decodeTableWord_eq_some {nbits w : Nat} {i : Instr} :
    decodeTableWord nbits w = some i ↔ decode (tableWord nbits w) = .ok i := by
  unfold decodeTableWord
  cases decode (tableWord nbits w) with
  | ok j => simp
  | error why => simp

end Sys2Proof

namespace Sys2Proof.Machine

/-! ### The word at the head of the port -/

/-- Of the four things a step can do (`step_cases`), a command that decodes leaves one. -/
theorem step_eq_exec_of_command {s : State} {w : Word} {rest : List HostEvent} {i : Instr}
    (hport : s.port.events = .command w :: rest) (hdec : decode w = .ok i) : step s = exec i s := by
  rcases step_cases s with ⟨hidle, -⟩ | ⟨_, hreset, -⟩ | ⟨v, _, j, hcmd, hj, hstep⟩ | ⟨v, _, why, hcmd, hwhy, -⟩
  · simp [hport] at hidle
  · simp [hport] at hreset
  · obtain ⟨rfl, -⟩ : w = v ∧ _ := by simpa [hport] using hcmd
    obtain rfl : i = j := by simpa [hdec] using hj
    exact hstep
  · obtain ⟨rfl, -⟩ : w = v ∧ _ := by simpa [hport] using hcmd
    simp [hdec] at hwhy

theorem step_placeCommand {w : Word} {i : Instr} (s : State) (hdec : decode w = .ok i) :
    step (s.placeCommand w) = exec i (s.placeCommand w) :=
  step_eq_exec_of_command (s.placeCommand_events w) hdec

/-! ### The open command sets (R10) -/

theorem reportingCmds_iff {k : Byte} :
    reportingCmds k = true ↔ k = 0x01 ∨ k = 0x02 ∨ k = sendReportCode ∨ Config.reportingOther k = true := by
  simp [reportingCmds, or_assoc]

theorem systemCmds_iff {k : Byte} :
    systemCmds k = true ↔ k = 0x00 ∨ k = 0x01 ∨ Config.systemOther k = true := by
  simp [systemCmds, or_assoc]

/-- The numbering of the bytes other than 0x01 and 0x02 skips those two, and its last index, 253, is the byte 0xFF. -/
theorem sendReportCode_toNat :
    sendReportCode.toNat = if Config.sendReportIndex.val = 0 then 0 else Config.sendReportIndex.val + 2 := by
  have hlt := Config.sendReportIndex.isLt
  simp only [sendReportCode, BitVec.toNat_ofNat]
  split <;> omega

theorem sendReportCode_toNat_cases : sendReportCode.toNat = 0 ∨ 3 ≤ sendReportCode.toNat := by
  rw [sendReportCode_toNat]
  split <;> omega

theorem sendReportCode_ne_one : sendReportCode ≠ 0x01 := by
  intro h
  simpa [h] using sendReportCode_toNat_cases

theorem sendReportCode_ne_two : sendReportCode ≠ 0x02 := by
  intro h
  simpa [h] using sendReportCode_toNat_cases

/-! ### How a received frame ends (R17) -/

theorem Rx.done_iff {r : Rx} : r.done = true ↔ r.phase = 10 := by simp [Rx.done, Phase.code]

theorem Rx.accepted_iff {r : Rx} : r.accepted = true ↔ r.phase = 10 ∧ r.err = false := by
  simp [Rx.accepted, Rx.done_iff]

theorem Rx.rejected_iff {r : Rx} : r.rejected = true ↔ (r.phase = 10 ∧ r.err = true) ∨ r.phase = 11 := by
  simp [Rx.rejected, Rx.done_iff, Phase.code]

theorem Rx.incomplete_iff {r : Rx} : r.incomplete = true ↔ r.phase ≠ 10 ∧ r.phase ≠ 11 := by
  simp [Rx.incomplete, Rx.done, Phase.code]

/-- DONE is accepted or rejected by ERR alone, ERROR is rejected whatever ERR holds, and every other phase is incomplete. -/
theorem Rx.exactly_one_ending (r : Rx) :
    (r.accepted = true ∧ r.rejected = false ∧ r.incomplete = false) ∨
    (r.accepted = false ∧ r.rejected = true ∧ r.incomplete = false) ∨
    (r.accepted = false ∧ r.rejected = false ∧ r.incomplete = true) := by
  simp only [← Bool.not_eq_true, Rx.accepted_iff, Rx.rejected_iff, Rx.incomplete_iff]
  by_cases hdone : r.phase = 10
  · cases r.err <;> simp [hdone]
  · by_cases herror : r.phase = 11
    · simp [herror]
    · simp only [ne_eq, hdone, herror]
      simp

/-! ### The statements -/

/-- Settles O11: the placed word is at the head of the port, and it decodes to `i`. -/
theorem placedWordIsRunNext : Obligations.PlacedWordIsRunNext := by
  intro s w i hword
  exact step_placeCommand s (decodeTableWord_eq_some.mp hword)

/-- Settles O42, whatever the opaque parameters are: the sets hold the named bytes by their definitions, and
the code's numbering skips 0x01 and 0x02. -/
theorem openParametersConstrained : Obligations.OpenParametersConstrained := by
  refine ⟨?_, ?_, ?_, ?_, ?_, sendReportCode_ne_one, sendReportCode_ne_two⟩
  · exact reportingCmds_iff.mpr (.inl rfl)
  · exact reportingCmds_iff.mpr (.inr (.inl rfl))
  · exact systemCmds_iff.mpr (.inl rfl)
  · exact systemCmds_iff.mpr (.inr (.inl rfl))
  · exact reportingCmds_iff.mpr (.inr (.inr (.inl rfl)))

/-- Settles O44: the three words by their phases, and exactly one of them by `Rx.exactly_one_ending`. -/
theorem frameAcceptedRejectedOrIncomplete : Obligations.FrameAcceptedRejectedOrIncomplete := by
  intro r
  refine ⟨Rx.accepted_iff, Rx.rejected_iff, Rx.incomplete_iff, ?_⟩
  rcases r.exactly_one_ending with ⟨hacc, hrej, hinc⟩ | ⟨hacc, hrej, hinc⟩ | ⟨hacc, hrej, hinc⟩ <;>
    simp [hacc, hrej, hinc]

end Sys2Proof.Machine
end

section
/-! PROOFS. 10_state.md: what a command and a step can change of each unit (R42), the ranges every step keeps
(R23, R24, R31, R35, R38, R40), the STATUS views (R33, R39), that no state is hidden (R41), and the reset values (R43). -/

namespace Sys2Proof.Machine

/-! ### What a command can change of each unit (R42) -/

/-- What a command can make of CKE (40_checksum.md R124, R125). -/
inductive Cke.Change (c : Cke) : Instr → Cke → Prop
  | clear : c.Change .ckClr Cke.reset
  | fold (x : Byte) : c.Change (.ckUpd x) (c.fold x)

/-- What a command can make of RX (41_deserializer.md R143, R144). -/
inductive Rx.Change (r : Rx) : Instr → Rx → Prop
  | reset : r.Change .rxRst Rx.reset
  | push {x : Byte} {r' : Rx} (hpush : r.push x = some r') : r.Change (.rxPush x) r'

/-- What a command can make of TX (42_serializer.md R182 to R185). -/
inductive Tx.Change (t : Tx) : Instr → Tx → Prop
  | reset : t.Change .txRst Tx.reset
  | set {i : Instr} (hset : i.isTxSet = true) (hidle : t.busy = false) (l : Word) (m c k : Byte) :
      t.Change i { t with len := l, mtype := m, mclass := c, cmd := k }
  | start (hidle : t.busy = false) (hcode : t.codeOk = true) : t.Change .txGo t.start
  | emit {x b : Byte} {t' : Tx} (hemit : t.emit x = .byte b t') : t.Change (.txStep x) t'

/-- The next state of a command: its answer, and, if that is OK, at most one unit changed. -/
inductive Effect (i : Instr) (s : State) : State → Prop
  | none (r : Response) : Effect i s (s.answer r)
  | cke {c : Cke} (hc : s.cke.Change i c) (v : Word) : Effect i s ((s.setCke c).answer (.ok v))
  | rx {r : Rx} (hr : s.rx.Change i r) (v : Word) : Effect i s ((s.setRx r).answer (.ok v))
  | tx {t : Tx} (ht : s.tx.Change i t) (v : Word) : Effect i s ((s.setTx t).answer (.ok v))

theorem effect_of_answerOk {i : Instr} {s t : State} {v : Word} (h : answerOk s v = .next t) : Effect i s t := by
  rw [answerOk_next.mp h]
  exact .none _

theorem effect_of_txWrite {i : Instr} {set : Tx → Tx} {s t : State} (hset : i.isTxSet = true)
    (hheader : ∃ l m c k, set s.tx = { s.tx with len := l, mtype := m, mclass := c, cmd := k })
    (h : txWrite set s = .next t) : Effect i s t := by
  obtain ⟨l, m, c, k, hwrite⟩ := hheader
  rcases txWrite_cases set s with ⟨-, hout⟩ | ⟨hidle, hout⟩
  · cases hout.symm.trans h
    exact .none _
  · cases hout.symm.trans h
    rw [hwrite]
    exact .tx (.set hset hidle l m c k) _

/-- Everything a command can do. -/
theorem exec_effect {i : Instr} {s t : State} (h : exec i s = .next t) : Effect i s t := by
  cases i with
  | nop | ckRd | rxRdStatus | rxRdLen | rxRdType | rxRdClass | rxRdCmd | rxRdCkw | rxRdCkc | rxRdPcnt
  | txRdStatus | txRdLen | txRdType | txRdClass | txRdCmd | txRdCk | txRdPcnt => exact effect_of_answerOk h
  | reserved low =>
    cases h
    exact .none _
  | ckClr =>
    cases h
    exact .cke .clear _
  | ckUpd x =>
    cases h
    exact .cke (.fold x) _
  | rxRst =>
    cases h
    exact .rx .reset _
  | rxPush x =>
    rcases execRxPush_cases x s with ⟨r, hpush, hout⟩ | ⟨-, hout⟩
    · cases hout.symm.trans h
      exact .rx (.push hpush) _
    · cases hout.symm.trans h
  | txSetLenLo v =>
    unfold exec execTxSetLenLo at h
    exact effect_of_txWrite rfl ⟨withLow s.tx.len v, _, _, _, rfl⟩ h
  | txSetType v =>
    unfold exec execTxSetType at h
    exact effect_of_txWrite rfl ⟨_, v, _, _, rfl⟩ h
  | txSetClass v =>
    unfold exec execTxSetClass at h
    exact effect_of_txWrite rfl ⟨_, _, v, _, rfl⟩ h
  | txSetCmd v =>
    unfold exec execTxSetCmd at h
    exact effect_of_txWrite rfl ⟨_, _, _, v, rfl⟩ h
  | txSetLenHi v =>
    unfold exec execTxSetLenHi at h
    exact effect_of_txWrite rfl ⟨withHigh s.tx.len v, _, _, _, rfl⟩ h
  | txGo =>
    rcases execTxGo_cases s with ⟨-, hout⟩ | ⟨hidle, hcode, hout⟩
    · cases hout.symm.trans h
      exact .none _
    · cases hout.symm.trans h
      exact .tx (.start hidle hcode) _
  | txStep x =>
    rcases execTxStep_cases x s with ⟨b, t', hemit, hout⟩ | ⟨-, hout⟩ | ⟨-, hout⟩
    · cases hout.symm.trans h
      exact .tx (.emit hemit) _
    · cases hout.symm.trans h
      exact .none _
    · cases hout.symm.trans h
  | txRst =>
    cases h
    exact .tx .reset _

theorem exec_cke {i : Instr} {s t : State} (h : exec i s = .next t) : t.cke = s.cke ∨ s.cke.Change i t.cke := by
  cases exec_effect h with
  | cke hc => exact .inr hc
  | none | rx | tx => exact .inl rfl

theorem exec_rx {i : Instr} {s t : State} (h : exec i s = .next t) : t.rx = s.rx ∨ s.rx.Change i t.rx := by
  cases exec_effect h with
  | rx hr => exact .inr hr
  | none | cke | tx => exact .inl rfl

theorem exec_tx {i : Instr} {s t : State} (h : exec i s = .next t) : t.tx = s.tx ∨ s.tx.Change i t.tx := by
  cases exec_effect h with
  | tx ht => exact .inr ht
  | none | cke | rx => exact .inl rfl

/-- A command has a response, and one that is not OK comes with no effect (60_exceptions.md R231, R232). -/
theorem exec_response {i : Instr} {s t : State} (h : exec i s = .next t) :
    ∃ r, Returned s t r ∧ (r.st ≠ .ok → SameBlock s t) := by
  cases exec_effect h with
  | none r => exact ⟨r, answer_returned s r, fun _ => answer_sameBlock s r⟩
  | cke _ v => exact ⟨.ok v, setCke_answer_returned s _ _, fun hst => absurd rfl hst⟩
  | rx _ v => exact ⟨.ok v, setRx_answer_returned s _ _, fun hst => absurd rfl hst⟩
  | tx _ v => exact ⟨.ok v, setTx_answer_returned s _ _, fun hst => absurd rfl hst⟩

/-! ### What a step can change of each unit -/

/-- A step is, for the block's state, nothing, the reset event, or a command. -/
theorem step_block_cases {s t : State} (h : step s = .next t) :
    SameBlock s t ∨ SameBlock State.reset t ∨ ∃ i, exec i s = .next t := by
  rcases step_cases s with ⟨-, hstep⟩ | ⟨_, -, hstep⟩ | ⟨_, _, i, -, -, hstep⟩ | ⟨_, _, _, -, -, hstep⟩
  · cases hstep.symm.trans h
    exact .inl ⟨rfl, rfl, rfl⟩
  · cases hstep.symm.trans h
    exact .inr (.inl ⟨rfl, rfl, rfl⟩)
  · exact .inr (.inr ⟨i, hstep.symm.trans h⟩)
  · cases hstep.symm.trans h
    exact .inl (answer_sameBlock s _)

/-- What holds of CKE as it is, at reset and after any change a command makes of it, holds after a step. -/
theorem step_cke {P : Cke → Prop} {s t : State} (h : step s = .next t) (hkept : P s.cke) (hreset : P Cke.reset)
    (hchange : ∀ i c, s.cke.Change i c → P c) : P t.cke := by
  rcases step_block_cases h with ⟨hcke, -, -⟩ | ⟨hcke, -, -⟩ | ⟨i, hexec⟩
  · exact hcke ▸ hkept
  · exact hcke ▸ hreset
  · rcases exec_cke hexec with hcke | hc
    · exact hcke ▸ hkept
    · exact hchange i _ hc

/-- What holds of RX as it is, at reset and after any change a command makes of it, holds after a step. -/
theorem step_rx {P : Rx → Prop} {s t : State} (h : step s = .next t) (hkept : P s.rx) (hreset : P Rx.reset)
    (hchange : ∀ i r, s.rx.Change i r → P r) : P t.rx := by
  rcases step_block_cases h with ⟨-, hrx, -⟩ | ⟨-, hrx, -⟩ | ⟨i, hexec⟩
  · exact hrx ▸ hkept
  · exact hrx ▸ hreset
  · rcases exec_rx hexec with hrx | hr
    · exact hrx ▸ hkept
    · exact hchange i _ hr

/-- What holds of TX as it is, at reset and after any change a command makes of it, holds after a step. -/
theorem step_tx {P : Tx → Prop} {s t : State} (h : step s = .next t) (hkept : P s.tx) (hreset : P Tx.reset)
    (hchange : ∀ i u, s.tx.Change i u → P u) : P t.tx := by
  rcases step_block_cases h with ⟨-, -, htx⟩ | ⟨-, -, htx⟩ | ⟨i, hexec⟩
  · exact htx ▸ hkept
  · exact htx ▸ hreset
  · rcases exec_tx hexec with htx | hu
    · exact htx ▸ hkept
    · exact hchange i _ hu

/-! ### The wire-byte operations, field by field -/

/-- The phase after a byte of the frame, in RX as in TX: a frame of length 0 has no PAYLOAD phase, and the last
payload byte leaves it (41_deserializer.md R144, 42_serializer.md R185). -/
def nextPhase (phase : Nibble) (count len : Word) : Nibble :=
  if phase = 6 then (if len = 0 then 8 else 7)
  else if phase = 7 then (if count + 1 = len then 8 else 7)
  else phase + 1

/-- The payload count after a byte of the frame, in RX as in TX: PAYLOAD counts it (R144, R185). -/
def nextCount (phase : Nibble) (count : Word) : Word := if phase = 7 then count + 1 else count

/-- The right magic byte moves RX on; a wrong one stops it and sets MAGERR. -/
theorem Rx.magic_eq (r : Rx) (want : Byte) (next : Phase) (x : Byte) :
    r.magic want next x =
      { r with phase := if x = want then next.code else Phase.error.code, magerr := r.magerr || x != want } := by
  by_cases hx : x = want <;> simp [Rx.magic, Rx.goto, hx]

@[simp] theorem Rx.magic_pcnt (r : Rx) (want : Byte) (next : Phase) (x : Byte) :
    (r.magic want next x).pcnt = r.pcnt := by rw [Rx.magic_eq]

theorem Rx.magic_phase (r : Rx) (want : Byte) (next : Phase) (x : Byte) :
    (r.magic want next x).phase = next.code ∨ (r.magic want next x).phase = 11 := by
  by_cases hx : x = want <;> simp [Rx.magic_eq, hx, Phase.code]

theorem Rx.push_accumulators {r r' : Rx} {x : Byte} (h : r.push x = some r') :
    (r'.a, r'.b) = (r.a, r.b) ∨ (r'.a, r'.b) = ckstep r.a r.b x := by
  rcases Rx.push_cases h with ⟨-, rfl⟩ | ⟨-, rfl⟩ | ⟨-, rfl⟩ | ⟨-, rfl⟩ | ⟨-, rfl⟩ | ⟨-, rfl⟩ | ⟨-, rfl⟩ | ⟨-, rfl⟩
    | ⟨-, rfl⟩ | ⟨-, rfl⟩ | ⟨-, rfl⟩ <;>
    simp [Rx.magic_eq, Rx.takeType, Rx.takeClass, Rx.takeCmd, Rx.takePayload, Rx.takeCkHi]

/-- A parsed register is written in its own phase only (10_state.md R25 to R29, R42). -/
theorem Rx.push_registers {r r' : Rx} {x : Byte} (h : r.push x = some r') :
    (r.phase ≠ 2 → r.phase ≠ 3 → r'.len = r.len) ∧ (r.phase ≠ 4 → r'.mtype = r.mtype)
      ∧ (r.phase ≠ 5 → r'.mclass = r.mclass) ∧ (r.phase ≠ 6 → r'.cmd = r.cmd)
      ∧ (r.phase ≠ 8 → r.phase ≠ 9 → r'.ckw = r.ckw) := by
  rcases Rx.push_cases h with ⟨hp, rfl⟩ | ⟨hp, rfl⟩ | ⟨hp, rfl⟩ | ⟨hp, rfl⟩ | ⟨hp, rfl⟩ | ⟨hp, rfl⟩ | ⟨hp, rfl⟩
    | ⟨hp, rfl⟩ | ⟨hp, rfl⟩ | ⟨hp, rfl⟩ | ⟨hp, rfl⟩ <;>
    simp [hp, Rx.magic_eq, Rx.takeType, Rx.takeClass, Rx.takeCmd, Rx.takePayload, Rx.takeCkHi]

/-- RX_PUSH moves RX on by one byte of the frame, or stops it at a magic byte, or stays in a terminal phase. -/
theorem Rx.push_phase_pcnt {r r' : Rx} {x : Byte} (h : r.push x = some r') :
    (r.phase.toNat ≤ 9 ∧ r'.phase = nextPhase r.phase r.pcnt r.len ∧ r'.pcnt = nextCount r.phase r.pcnt) ∨
    (r.phase.toNat ≤ 1 ∧ r'.phase = 11 ∧ r'.pcnt = r.pcnt) ∨
    ((r.phase = 10 ∨ r.phase = 11) ∧ r' = { r with ovr := true }) := by
  rcases Rx.push_cases h with ⟨hp, rfl⟩ | ⟨hp, rfl⟩ | ⟨hp, rfl⟩ | ⟨hp, rfl⟩ | ⟨hp, rfl⟩ | ⟨hp, rfl⟩ | ⟨hp, rfl⟩
    | ⟨hp, rfl⟩ | ⟨hp, rfl⟩ | ⟨hp, rfl⟩ | ⟨hp, rfl⟩
  · simpa [nextPhase, nextCount, hp, Phase.code] using r.magic_phase 0x4D .magic1 x
  · simpa [nextPhase, nextCount, hp, Phase.code] using r.magic_phase 0x45 .lenLo x
  iterate 8
    · simp [nextPhase, nextCount, hp, apply_ite, Phase.code, Rx.takeType, Rx.takeClass, Rx.takeCmd, Rx.takePayload,
        Rx.takeCkHi]
  · exact .inr (.inr ⟨hp, rfl⟩)

theorem Tx.busy_iff {t : Tx} : t.busy = true ↔ t.phase.toNat ≤ 9 := by simp [Tx.busy]

/-- TX_STEP emits a byte only while TX is busy; it moves TX on by one byte of the frame, folds the byte it emits or
leaves the accumulators, and keeps the header (42_serializer.md R185, R188). -/
theorem Tx.emit_byte {t t' : Tx} {x b : Byte} (h : t.emit x = .byte b t') :
    t.busy = true ∧ t'.phase = nextPhase t.phase t.pcnt t.len ∧ t'.pcnt = nextCount t.phase t.pcnt
      ∧ ((t'.a, t'.b) = (t.a, t.b) ∨ (t'.a, t'.b) = ckstep t.a t.b b)
      ∧ t'.len = t.len ∧ t'.mtype = t.mtype ∧ t'.mclass = t.mclass ∧ t'.cmd = t.cmd := by
  rcases t.emit_cases x with ⟨hp, he⟩ | ⟨hp, he⟩ | ⟨hp, he⟩ | ⟨hp, he⟩ | ⟨hp, he⟩ | ⟨hp, he⟩ | ⟨hp, he⟩ | ⟨hp, he⟩
    | ⟨hp, he⟩ | ⟨hp, he⟩ | ⟨-, he⟩ | ⟨-, he⟩ <;> cases he.symm.trans h <;>
    simp [Tx.busy_iff, nextPhase, nextCount, hp, apply_ite, Phase.code, Tx.emitPayload]

/-! ### Accumulators (R23) -/

theorem accumulatorOk_iff {x : Byte} : AccumulatorOk x ↔ x ≠ 0xFF := by
  unfold AccumulatorOk
  bv_omega

theorem ckstep_accumulatorOk (a b x : Byte) :
    AccumulatorOk (ckstep a b x).1 ∧ AccumulatorOk (ckstep a b x).2 := by
  rw [AccumulatorOk, AccumulatorOk, ckstep_a_toNat, ckstep_b_toNat]
  omega

/-- A unit that keeps its two accumulators, or folds a byte into them, keeps them in range. -/
theorem accumulatorOk_of_kept_or_folded {a b a' b' x : Byte} (ha : AccumulatorOk a) (hb : AccumulatorOk b)
    (h : (a', b') = (a, b) ∨ (a', b') = ckstep a b x) : AccumulatorOk a' ∧ AccumulatorOk b' := by
  rcases h with hkept | hfold
  · cases hkept
    exact ⟨ha, hb⟩
  · have hok := ckstep_accumulatorOk a b x
    rwa [← hfold] at hok

theorem Cke.Change.inv {c c' : Cke} {i : Instr} (h : c.Change i c') : c'.Inv := by
  cases h with
  | clear => decide
  | fold x => exact ckstep_accumulatorOk c.a c.b x

theorem Rx.Change.accumulatorOk {r r' : Rx} {i : Instr} (h : r.Change i r') (ha : AccumulatorOk r.a)
    (hb : AccumulatorOk r.b) : AccumulatorOk r'.a ∧ AccumulatorOk r'.b := by
  cases h with
  | reset => decide
  | push hpush => exact accumulatorOk_of_kept_or_folded ha hb (Rx.push_accumulators hpush)

theorem Tx.Change.accumulatorOk {t t' : Tx} {i : Instr} (h : t.Change i t') (ha : AccumulatorOk t.a)
    (hb : AccumulatorOk t.b) : AccumulatorOk t'.a ∧ AccumulatorOk t'.b := by
  cases h with
  | reset => decide
  | start => exact ⟨Nat.zero_le _, Nat.zero_le _⟩
  | set => exact ⟨ha, hb⟩
  | emit hemit =>
    obtain ⟨-, -, -, hacc, -⟩ := Tx.emit_byte hemit
    exact accumulatorOk_of_kept_or_folded ha hb hacc

theorem step_keeps_cke_inv {s t : State} (h : step s = .next t) (hinv : s.cke.Inv) : t.cke.Inv :=
  step_cke (P := Cke.Inv) h hinv (by decide) fun _ _ hchange => hchange.inv

theorem step_keeps_rx_accumulatorOk {s t : State} (h : step s = .next t) (ha : AccumulatorOk s.rx.a)
    (hb : AccumulatorOk s.rx.b) : AccumulatorOk t.rx.a ∧ AccumulatorOk t.rx.b :=
  step_rx (P := fun r => AccumulatorOk r.a ∧ AccumulatorOk r.b) h ⟨ha, hb⟩ (by decide)
    fun _ _ hchange => hchange.accumulatorOk ha hb

theorem step_keeps_tx_accumulatorOk {s t : State} (h : step s = .next t) (ha : AccumulatorOk s.tx.a)
    (hb : AccumulatorOk s.tx.b) : AccumulatorOk t.tx.a ∧ AccumulatorOk t.tx.b :=
  step_tx (P := fun u => AccumulatorOk u.a ∧ AccumulatorOk u.b) h ⟨ha, hb⟩ (by decide)
    fun _ _ hchange => hchange.accumulatorOk ha hb

/-! ### Phase and payload count (R31, R38) -/

/-- How a payload count stands to the length by phase: 0 before PAYLOAD, below the length in it, the length after it. -/
def CountAt (phase : Nibble) (count len : Word) : Prop :=
  (phase.toNat ≤ 6 → count = 0) ∧ (phase.toNat = 7 → count.toNat < len.toNat)
    ∧ (8 ≤ phase.toNat → phase.toNat ≤ 10 → count = len)

theorem CountAt.le {phase : Nibble} {count len : Word} (h : CountAt phase count len) (hphase : phase.toNat ≤ 10) :
    count.toNat ≤ len.toNat := by
  obtain ⟨hbefore, hin, hafter⟩ := h
  rcases (by omega : phase.toNat ≤ 6 ∨ phase.toNat = 7 ∨ 8 ≤ phase.toNat) with hp | hp | hp
  · simp [hbefore hp]
  · exact (hin hp).le
  · rw [hafter hp hphase]

theorem countAt_before {phase : Nibble} (hphase : phase.toNat ≤ 6) (len : Word) : CountAt phase 0 len :=
  ⟨fun _ => rfl, fun _ => by omega, fun _ => by omega⟩

theorem countAt_payload {count len : Word} (h : count.toNat < len.toNat) : CountAt 7 count len :=
  ⟨by simp, fun _ => h, by simp⟩

theorem countAt_after {phase : Nibble} (hphase : 8 ≤ phase.toNat) (len : Word) : CountAt phase len len :=
  ⟨fun _ => by omega, fun _ => by omega, fun _ _ => rfl⟩

theorem succ_phase_toNat {phase : Nibble} (hphase : phase.toNat ≤ 9) : (phase + 1).toNat = phase.toNat + 1 := by
  bv_omega

theorem nextPhase_le {phase : Nibble} {count len : Word} (hphase : phase.toNat ≤ 9) :
    (nextPhase phase count len).toNat ≤ 10 := by
  have hsucc := succ_phase_toNat hphase
  unfold nextPhase
  split
  · split <;> decide
  · split
    · split <;> decide
    · omega

/-- Moving on by one byte keeps the count where it must be; the length may still change while it is received. -/
theorem CountAt.next {phase : Nibble} {count len len' : Word} (h : CountAt phase count len)
    (hphase : phase.toNat ≤ 9) (hlen : phase ≠ 2 → phase ≠ 3 → len' = len) :
    CountAt (nextPhase phase count len) (nextCount phase count) len' := by
  obtain ⟨hbefore, hin, hafter⟩ := h
  unfold nextPhase
  by_cases h6 : phase = 6
  · subst h6
    obtain rfl := hlen (by decide) (by decide)
    obtain rfl := hbefore (by decide)
    have hcount : nextCount 6 0 = 0 := rfl
    rw [if_pos rfl, hcount]
    split
    next hzero =>
      rw [hzero]
      exact countAt_after (by decide) 0
    next hpos => exact countAt_payload (by bv_omega)
  by_cases h7 : phase = 7
  · subst h7
    obtain rfl := hlen (by decide) (by decide)
    have hlt := hin (by decide)
    rw [if_neg (by decide), if_pos rfl, nextCount, if_pos rfl]
    split
    next hlast =>
      rw [hlast]
      exact countAt_after (by decide) len'
    next hmore => exact countAt_payload (by bv_omega)
  have hsucc := succ_phase_toNat hphase
  rw [if_neg h6, if_neg h7, nextCount, if_neg h7]
  rcases (by bv_omega : phase.toNat ≤ 5 ∨ 8 ≤ phase.toNat) with hp | hp
  · obtain rfl := hbefore (by omega)
    exact countAt_before (by omega) len'
  · obtain rfl := hlen (by bv_omega) (by bv_omega)
    obtain rfl := hafter hp (by omega)
    exact countAt_after (by omega) count

theorem Rx.inv_iff {r : Rx} :
    r.Inv ↔ AccumulatorOk r.a ∧ AccumulatorOk r.b ∧ r.phase.toNat ≤ 11 ∧ CountAt r.phase r.pcnt r.len
      ∧ (r.phase.toNat = 11 → r.pcnt = 0) := by
  simp only [Rx.Inv, CountAt, and_assoc]

theorem Tx.Inv.countAt {t : Tx} (h : t.Inv) (hbusy : t.busy = true) : CountAt t.phase t.pcnt t.len := by
  obtain ⟨-, -, -, -, hbefore, hin, hafter⟩ := h
  have hphase := Tx.busy_iff.mp hbusy
  exact ⟨hbefore, hin, fun hp _ => hafter hp hphase⟩

/-- A byte of the frame leaves RX's fields in range: it moves RX on, stops it with no payload, or is dropped. -/
theorem Rx.push_keeps_inv {r r' : Rx} {x : Byte} (h : r.push x = some r') (hinv : r.Inv) : r'.Inv := by
  obtain ⟨ha, hb, hphase, hcount, -⟩ := Rx.inv_iff.mp hinv
  obtain ⟨ha', hb'⟩ := accumulatorOk_of_kept_or_folded ha hb (Rx.push_accumulators h)
  rcases Rx.push_phase_pcnt h with ⟨hp, hphase', hpcnt'⟩ | ⟨hp, hphase', hpcnt'⟩ | ⟨-, rfl⟩
  · obtain ⟨hlen, -⟩ := Rx.push_registers h
    have hle : r'.phase.toNat ≤ 10 := hphase' ▸ nextPhase_le hp
    have hcount' : CountAt r'.phase r'.pcnt r'.len := hphase' ▸ hpcnt' ▸ hcount.next hp hlen
    exact Rx.inv_iff.mpr ⟨ha', hb', by omega, hcount', fun _ => by omega⟩
  · obtain ⟨hbefore, -⟩ := hcount
    have hzero : r'.pcnt = 0 := hpcnt'.trans (hbefore (by omega))
    exact Rx.inv_iff.mpr ⟨ha', hb', by simp [hphase'], by simp [CountAt, hphase'], fun _ => hzero⟩
  · exact hinv

theorem Rx.Change.keeps_inv {r r' : Rx} {i : Instr} (h : r.Change i r') (hinv : r.Inv) : r'.Inv := by
  cases h with
  | reset => decide
  | push hpush => exact Rx.push_keeps_inv hpush hinv

/-- Emitting a byte leaves TX's count where the next phase has it, DONE included. -/
theorem Tx.emit_countAt {t t' : Tx} {x b : Byte} (h : t.emit x = .byte b t') (hinv : t.Inv) :
    t'.phase.toNat ≤ 10 ∧ CountAt t'.phase t'.pcnt t'.len := by
  obtain ⟨hbusy, hphase', hpcnt', -, hlen, -⟩ := Tx.emit_byte h
  have hphase := Tx.busy_iff.mp hbusy
  rw [hphase', hpcnt']
  exact ⟨nextPhase_le hphase, (hinv.countAt hbusy).next hphase fun _ _ => hlen⟩

theorem Tx.inv_of_idle {t : Tx} (ha : AccumulatorOk t.a) (hb : AccumulatorOk t.b)
    (hphase : t.phase.toNat ≤ 10 ∨ t.phase.toNat = 12) (hidle : t.busy = false) : t.Inv := by
  have hbusy : ¬ t.busy = true := by simp [hidle]
  have hnot : ¬ t.phase.toNat ≤ 9 := fun hp => hbusy (Tx.busy_iff.mpr hp)
  exact ⟨ha, hb, hphase, fun hb => absurd hb hbusy, fun _ => by omega, fun _ => by omega, fun _ _ => by omega⟩

theorem Tx.start_inv {t : Tx} (hcode : t.codeOk = true) : t.start.Inv := by
  refine ⟨Nat.zero_le _, Nat.zero_le _, .inl (Nat.zero_le _), fun _ => hcode, fun _ => rfl, ?_, ?_⟩ <;> simp

/-- TX_SET leaves TX's fields in range because it leaves TX idle, and TX_STEP because it keeps the header. -/
theorem Tx.Change.keeps_inv {t t' : Tx} {i : Instr} (h : t.Change i t') (hinv : t.Inv) : t'.Inv := by
  have ⟨ha, hb, hphase, hcode, _⟩ := hinv
  have hacc := h.accumulatorOk ha hb
  cases h with
  | reset => decide
  | set _ hidle => exact Tx.inv_of_idle ha hb hphase hidle
  | start _ hcode => exact Tx.start_inv hcode
  | emit hemit =>
    obtain ⟨hle, hbefore', hin', hafter'⟩ := Tx.emit_countAt hemit hinv
    obtain ⟨hbusy, -, -, -, -, htype, hclass, -⟩ := Tx.emit_byte hemit
    refine ⟨hacc.1, hacc.2, .inl hle, fun _ => ?_, hbefore', hin', fun hp hp' => hafter' hp (by omega)⟩
    rw [← hcode hbusy, Tx.codeOk, Tx.codeOk, htype, hclass]

/-! ### TX's count against the length its frame was started with (R38) -/

theorem Tx.countWithin_of_idle {t : Tx} {l : Word} (hidle : t.busy = false) (hle : t.pcnt.toNat ≤ l.toNat) :
    t.CountWithin l :=
  ⟨hle, fun hbusy => absurd (hidle.symm.trans hbusy) (by decide)⟩

/-- The length of the frame TX counts, after a change of TX: a change that makes an idle TX busy starts a frame. -/
abbrev Tx.frameLenAfter (l : Word) (t t' : Tx) : Word := if t.busy = false ∧ t'.busy = true then t.len else l

theorem Tx.frameLenAfter_of_busy {l : Word} {t t' : Tx} (h : t.busy = true) : t.frameLenAfter l t' = l := by simp [h]

theorem Tx.frameLenAfter_of_idle {l : Word} {t t' : Tx} (h : t'.busy = false) : t.frameLenAfter l t' = l := by simp [h]

theorem Tx.frameLenAfter_self {l : Word} {t : Tx} : t.frameLenAfter l t = l := by cases h : t.busy <;> simp [h]

/-- The claim of R38 for one change of TX: the count stays within the length of its frame, and a frame that
becomes complete has all of it. -/
def Tx.CountKept (l : Word) (t t' : Tx) : Prop :=
  t'.CountWithin (t.frameLenAfter l t') ∧ (t.busy = true → t'.phase = 10 → t'.pcnt = l ∧ t'.len = l)

theorem Tx.countKept_of_idle {t t' : Tx} {l : Word} (hidle : t'.busy = false) (hle : t'.pcnt.toNat ≤ l.toNat)
    (hdone : t.busy = true → t'.phase ≠ 10) : t.CountKept l t' := by
  refine ⟨?_, fun hbusy hphase => absurd hphase (hdone hbusy)⟩
  rw [Tx.frameLenAfter_of_idle hidle]
  exact Tx.countWithin_of_idle hidle hle

theorem Tx.reset_countKept {t : Tx} {l : Word} : t.CountKept l Tx.reset :=
  Tx.countKept_of_idle rfl (Nat.zero_le _) fun _ => by decide

theorem Tx.self_countKept {t : Tx} {l : Word} (h : t.CountWithin l) : t.CountKept l t := by
  refine ⟨by rwa [Tx.frameLenAfter_self], fun hbusy hdone => ?_⟩
  rw [Tx.busy_iff, hdone] at hbusy
  exact absurd hbusy (by decide)

theorem Tx.Change.countKept {t t' : Tx} {i : Instr} {l : Word} (h : t.Change i t') (hinv : t.Inv)
    (hwithin : t.CountWithin l) : t.CountKept l t' := by
  obtain ⟨hle, hlen⟩ := hwithin
  cases h with
  | reset => exact Tx.reset_countKept
  | set _ hidle => exact Tx.countKept_of_idle hidle hle fun hbusy => absurd (hidle.symm.trans hbusy) (by decide)
  | start hidle =>
    refine ⟨?_, fun hbusy => absurd (hidle.symm.trans hbusy) (by decide)⟩
    rw [Tx.frameLenAfter, if_pos ⟨hidle, rfl⟩]
    exact ⟨Nat.zero_le _, fun _ => rfl⟩
  | emit hemit =>
    obtain ⟨hbusy, -, -, -, hlen', -⟩ := Tx.emit_byte hemit
    obtain ⟨hphase, hcount⟩ := Tx.emit_countAt hemit hinv
    have hl : t'.len = l := hlen'.trans (hlen hbusy)
    rw [hl] at hcount
    refine ⟨?_, fun _ hdone => ⟨?_, hl⟩⟩
    · rw [Tx.frameLenAfter_of_busy hbusy]
      exact ⟨hcount.le hphase, fun _ => hl⟩
    · obtain ⟨-, -, hafter⟩ := hcount
      exact hafter (by simp [hdone]) hphase

/-! ### The STATUS views (R33, R34, R39) -/

theorem bit_getLsbD (f : Bool) (k : Nat) : (bit f).getLsbD k = (decide (k = 0) && f) := by
  cases f <;> simp [bit, BitVec.ofBool, BitVec.getLsbD_one]

theorem Rx.done_eq (r : Rx) : r.done = decide (r.phase = 10) := by simp [Rx.done, Phase.code, Bool.beq_eq_decide_eq]

theorem Tx.done_eq (t : Tx) : t.done = decide (t.phase = 10) := by simp [Tx.done, Phase.code, Bool.beq_eq_decide_eq]

theorem Tx.codeOk_eq (t : Tx) : t.codeOk = decide ((t.mtype = 0x00 ∨ t.mtype = 0x0F) ∧ t.mclass.toNat ≤ 0x08) := by
  simp [Tx.codeOk, typeOk, classOk, Bool.beq_eq_decide_eq]

theorem Rx.status_getLsbD_high (r : Rx) (k : Nat) : r.status.getLsbD (k + 8) = r.phase.getLsbD k := by
  simp only [Rx.status, BitVec.getLsbD_append]
  simpa using r.phase.lt_of_getLsbD

theorem Tx.status_getLsbD_high (t : Tx) (k : Nat) : t.status.getLsbD (k + 8) = t.phase.getLsbD k := by
  simp only [Tx.status, BitVec.getLsbD_append]
  simpa using t.phase.lt_of_getLsbD

/-- A word whose bits from 8 on are those of a phase has it in bits 11:8 and 0 above. -/
theorem phase_field_of_getLsbD_high {w : Word} {p : Nibble} (h : ∀ k, w.getLsbD (k + 8) = p.getLsbD k) :
    w.extractLsb' 12 4 = 0#4 ∧ w.extractLsb' 8 4 = p := by
  constructor
  · ext i hi
    rw [BitVec.getElem_extractLsb', show 12 + i = i + 4 + 8 by omega, h]
    simp
  · ext i hi
    rw [BitVec.getElem_extractLsb', Nat.add_comm, h, BitVec.getLsbD_eq_getElem hi]

theorem Rx.status_bits (r : Rx) :
    r.status.getLsbD 7 = r.err ∧ r.status.getLsbD 6 = r.ovr ∧ r.status.getLsbD 5 = r.ckerr
      ∧ r.status.getLsbD 4 = r.cmdunk ∧ r.status.getLsbD 3 = r.clserr ∧ r.status.getLsbD 2 = r.typerr
      ∧ r.status.getLsbD 1 = r.magerr ∧ r.status.getLsbD 0 = r.done := by
  simp only [Rx.status, BitVec.getLsbD_append, bit_getLsbD]
  simp

theorem Tx.status_bits (t : Tx) :
    t.status.extractLsb' 3 5 = 0#5 ∧ t.status.getLsbD 2 = t.codeOk ∧ t.status.getLsbD 1 = t.busy
      ∧ t.status.getLsbD 0 = t.done := by
  constructor
  · ext i hi
    have hlow : ¬ 5 ≤ i := by omega
    simp only [Tx.status, BitVec.getElem_extractLsb', BitVec.getLsbD_append, bit_getLsbD]
    simp [hlow]
  · simp only [Tx.status, BitVec.getLsbD_append, bit_getLsbD]
    simp

theorem Rx.status_phase (r : Rx) : r.status.extractLsb' 12 4 = 0#4 ∧ r.status.extractLsb' 8 4 = r.phase :=
  phase_field_of_getLsbD_high r.status_getLsbD_high

theorem Tx.status_phase (t : Tx) : t.status.extractLsb' 12 4 = 0#4 ∧ t.status.extractLsb' 8 4 = t.phase :=
  phase_field_of_getLsbD_high t.status_getLsbD_high

theorem Rx.status_inj {r r' : Rx} (h : r.status = r'.status) :
    r.phase = r'.phase ∧ r.ovr = r'.ovr ∧ r.ckerr = r'.ckerr ∧ r.cmdunk = r'.cmdunk ∧ r.clserr = r'.clserr
      ∧ r.typerr = r'.typerr ∧ r.magerr = r'.magerr := by
  obtain ⟨-, hovr, hckerr, hcmdunk, hclserr, htyperr, hmagerr, -⟩ := r.status_bits
  obtain ⟨-, hovr', hckerr', hcmdunk', hclserr', htyperr', hmagerr', -⟩ := r'.status_bits
  exact ⟨by rw [← r.status_phase.2, h, r'.status_phase.2], by rw [← hovr, h, hovr'], by rw [← hckerr, h, hckerr'],
    by rw [← hcmdunk, h, hcmdunk'], by rw [← hclserr, h, hclserr'], by rw [← htyperr, h, htyperr'],
    by rw [← hmagerr, h, hmagerr']⟩

theorem Tx.phase_eq_of_status_eq {t t' : Tx} (h : t.status = t'.status) : t.phase = t'.phase := by
  rw [← t.status_phase.2, h, t'.status_phase.2]

/-! ### What the reads tell (R41) -/

theorem zext16_inj {x y : Byte} (h : zext16 x = zext16 y) : x = y := by
  have hnat := congrArg BitVec.toNat h
  simp only [zext16, BitVec.toNat_setWidth] at hnat
  exact BitVec.eq_of_toNat_eq (by omega)

/-- A command whose meaning is to answer `f`, reads as `f` and as nothing else. -/
theorem readsAs_iff {i : Instr} {f : State → Word} (hread : ∀ s, exec i s = answerOk s (f s)) {s : State} {v : Word} :
    ReadsAs i s v ↔ v = f s := by
  constructor
  · rintro ⟨t, hexec, -, hret⟩
    rw [answerOk_next.mp ((hread s).symm.trans hexec)] at hret
    exact congrArg Response.data (returned_unique hret (answer_returned s _))
  · rintro rfl
    exact ⟨_, hread s, answer_sameBlock s _, answer_returned s _⟩

/-- Two states with the same answers to every read. -/
def ReadAlike (s u : State) : Prop := ∀ (i : Instr) (v : Word), i.isRead = true → (ReadsAs i s v ↔ ReadsAs i u v)

theorem ReadAlike.eq {s u : State} (h : ReadAlike s u) {i : Instr} {f : State → Word}
    (hread : ∀ s, exec i s = answerOk s (f s)) (hi : i.isRead = true) : f s = f u :=
  (readsAs_iff hread).mp ((h i (f s) hi).mp ((readsAs_iff hread).mpr rfl))

theorem ReadAlike.cke_eq {s u : State} (h : ReadAlike s u) : s.cke = u.cke := by
  obtain ⟨hb, ha⟩ := pack_inj.mp (h.eq (i := .ckRd) (f := fun s => s.cke.sum) (fun _ => rfl) rfl)
  cases hs : s.cke
  cases hu : u.cke
  simp_all

/-- RX's reads give every field: STATUS the phase and the flags, CKC the accumulators, the others one register each. -/
theorem ReadAlike.rx_eq {s u : State} (h : ReadAlike s u) : s.rx = u.rx := by
  obtain ⟨hphase, hovr, hckerr, hcmdunk, hclserr, htyperr, hmagerr⟩ :=
    Rx.status_inj (h.eq (i := .rxRdStatus) (f := fun s => s.rx.status) (fun _ => rfl) rfl)
  have hlen := h.eq (i := .rxRdLen) (f := fun s => s.rx.len) (fun _ => rfl) rfl
  have htype := zext16_inj (h.eq (i := .rxRdType) (f := fun s => zext16 s.rx.mtype) (fun _ => rfl) rfl)
  have hclass := zext16_inj (h.eq (i := .rxRdClass) (f := fun s => zext16 s.rx.mclass) (fun _ => rfl) rfl)
  have hcmd := zext16_inj (h.eq (i := .rxRdCmd) (f := fun s => zext16 s.rx.cmd) (fun _ => rfl) rfl)
  have hckw := h.eq (i := .rxRdCkw) (f := fun s => s.rx.ckw) (fun _ => rfl) rfl
  obtain ⟨hb, ha⟩ := pack_inj.mp (h.eq (i := .rxRdCkc) (f := fun s => s.rx.sum) (fun _ => rfl) rfl)
  have hpcnt := h.eq (i := .rxRdPcnt) (f := fun s => s.rx.pcnt) (fun _ => rfl) rfl
  cases hs : s.rx
  cases hu : u.rx
  simp_all

theorem ReadAlike.tx_eq {s u : State} (h : ReadAlike s u) : s.tx = u.tx := by
  have hphase := Tx.phase_eq_of_status_eq (h.eq (i := .txRdStatus) (f := fun s => s.tx.status) (fun _ => rfl) rfl)
  have hlen := h.eq (i := .txRdLen) (f := fun s => s.tx.len) (fun _ => rfl) rfl
  have htype := zext16_inj (h.eq (i := .txRdType) (f := fun s => zext16 s.tx.mtype) (fun _ => rfl) rfl)
  have hclass := zext16_inj (h.eq (i := .txRdClass) (f := fun s => zext16 s.tx.mclass) (fun _ => rfl) rfl)
  have hcmd := zext16_inj (h.eq (i := .txRdCmd) (f := fun s => zext16 s.tx.cmd) (fun _ => rfl) rfl)
  obtain ⟨hb, ha⟩ := pack_inj.mp (h.eq (i := .txRdCk) (f := fun s => s.tx.sum) (fun _ => rfl) rfl)
  have hpcnt := h.eq (i := .txRdPcnt) (f := fun s => s.tx.pcnt) (fun _ => rfl) rfl
  cases hs : s.tx
  cases hu : u.tx
  simp_all

/-! ### The access matrix (R42) -/

/-- TX's header registers are written by TX_SET and TX_RST only. -/
theorem Tx.Change.header {t t' : Tx} {i : Instr} (h : t.Change i t') (hset : i.isTxSet = false) (hrst : i ≠ .txRst) :
    t'.len = t.len ∧ t'.mtype = t.mtype ∧ t'.mclass = t.mclass ∧ t'.cmd = t.cmd := by
  cases h with
  | reset => exact absurd rfl hrst
  | set hset' => exact absurd (hset.symm.trans hset') (by decide)
  | start => exact ⟨rfl, rfl, rfl, rfl⟩
  | emit hemit =>
    obtain ⟨-, -, -, -, hheader⟩ := Tx.emit_byte hemit
    exact hheader

/-- TX's phase, accumulators and count are written by TX_GO, TX_STEP and TX_RST only. -/
theorem Tx.Change.progress {t t' : Tx} {i : Instr} (h : t.Change i t') (hgo : i ≠ .txGo) (hstep : ∀ x, i ≠ .txStep x)
    (hrst : i ≠ .txRst) : t'.phase = t.phase ∧ t'.a = t.a ∧ t'.b = t.b ∧ t'.pcnt = t.pcnt := by
  cases h with
  | reset => exact absurd rfl hrst
  | set => exact ⟨rfl, rfl, rfl, rfl⟩
  | start => exact absurd rfl hgo
  | emit => exact absurd rfl (hstep _)

theorem Cke.Change.instr {c c' : Cke} {i : Instr} (h : c.Change i c') : i = .ckClr ∨ ∃ x, i = .ckUpd x := by
  cases h with
  | clear => exact .inl rfl
  | fold x => exact .inr ⟨x, rfl⟩

theorem Rx.Change.instr {r r' : Rx} {i : Instr} (h : r.Change i r') : i = .rxRst ∨ ∃ x, i = .rxPush x := by
  cases h with
  | reset => exact .inl rfl
  | push => exact .inr ⟨_, rfl⟩

theorem Rx.Change.push_eq {r r' : Rx} {x : Byte} (h : r.Change (.rxPush x) r') : r.push x = some r' := by
  cases h with
  | push hpush => exact hpush

theorem exec_cke_frame {i : Instr} {s t : State} (h : exec i s = .next t) (hclr : i ≠ .ckClr)
    (hupd : ∀ x, i ≠ .ckUpd x) : t.cke = s.cke :=
  (exec_cke h).resolve_right fun hchange => hchange.instr.elim hclr fun ⟨x, hx⟩ => hupd x hx

theorem exec_rx_frame {i : Instr} {s t : State} (h : exec i s = .next t) (hrst : i ≠ .rxRst)
    (hpush : ∀ x, i ≠ .rxPush x) : t.rx = s.rx :=
  (exec_rx h).resolve_right fun hchange => hchange.instr.elim hrst fun ⟨x, hx⟩ => hpush x hx

theorem sameBlock_of_answerOk {s t : State} {v : Word} (h : answerOk s v = .next t) : SameBlock s t := by
  rw [answerOk_next.mp h]
  exact answer_sameBlock s _

/-- NOP and the reads answer a value and write no state. -/
theorem exec_read_sameBlock {i : Instr} {s t : State} (hread : i = .nop ∨ i.isRead = true)
    (h : exec i s = .next t) : SameBlock s t := by
  rcases hread with rfl | hread
  · exact sameBlock_of_answerOk h
  · cases i with
    | ckRd | rxRdStatus | rxRdLen | rxRdType | rxRdClass | rxRdCmd | rxRdCkw | rxRdCkc | rxRdPcnt
    | txRdStatus | txRdLen | txRdType | txRdClass | txRdCmd | txRdCk | txRdPcnt => exact sameBlock_of_answerOk h
    | _ => cases hread

/-- A command answered ILLEGAL or REFUSED writes no state, whether its word decodes or not. -/
theorem step_not_ok_sameBlock {s t : State} {w : Word} {r : Response} (hport : OnPort s w) (h : step s = .next t)
    (hret : Returned s t r) (hst : r.st ≠ .ok) : SameBlock s t := by
  rcases step_cases s with ⟨hidle, -⟩ | ⟨_, hreset, -⟩ | ⟨_, _, i, -, -, hstep⟩ | ⟨_, _, _, -, -, hstep⟩
  · rw [OnPort, hidle] at hport
    cases hport
  · rw [OnPort, hreset] at hport
    cases hport
  · obtain ⟨r', hret', hsame⟩ := exec_response (hstep.symm.trans h)
    obtain rfl := returned_unique hret hret'
    exact hsame hst
  · cases hstep.symm.trans h
    exact answer_sameBlock s _

/-! ### A frame whose length is lowered after it is sent (log entry 8) -/

/-- TX after a frame with the payload 0x01 has been sent. -/
def sentTx : Tx :=
  { phase := 10, len := 1, mtype := 0x00, mclass := 0x00, cmd := 0x00, a := 0x01, b := 0x01, pcnt := 1 }

theorem sentTx_reached : ∃ t, execAll (txFrameInstrs 0x00 0x00 0x00 [0x01]) State.reset = .next t ∧ t.tx = sentTx :=
  ⟨_, rfl, rfl⟩

/-- The frame of `sentTx` has been sent and TX_SET LEN_LO, 0 is on the port. -/
def lengthLowered : State := { State.reset with tx := sentTx }.placeCommand 0x7100

/-- The step takes TX.LEN to 0 and leaves TX.PCNT at 1. -/
theorem step_lengthLowered : ∃ t, step lengthLowered = .next t ∧ t.tx.len = 0 ∧ t.tx.pcnt = 1 := ⟨_, rfl, rfl, rfl⟩

/-! ### The statements -/

/-- Settles O4: a reset register is 0x00, and every other write is a fold, which is taken mod 255. -/
theorem accumulatorsNeverHoldFF : Obligations.AccumulatorsNeverHoldFF := by
  refine ⟨by decide, fun s t hs hstep => ?_⟩
  simp only [List.forall_mem_cons, ← accumulatorOk_iff] at hs ⊢
  obtain ⟨hca, hcb, hra, hrb, hta, htb, -⟩ := hs
  obtain ⟨hca', hcb'⟩ := step_keeps_cke_inv hstep ⟨hca, hcb⟩
  obtain ⟨hra', hrb'⟩ := step_keeps_rx_accumulatorOk hstep hra hrb
  obtain ⟨hta', htb'⟩ := step_keeps_tx_accumulatorOk hstep hta htb
  exact ⟨hca', hcb', hra', hrb', hta', htb', List.forall_mem_nil _⟩

/-- Settles O5, unit by unit: a step leaves a unit as it is, resets it, or changes it as a command can. -/
theorem stepKeepsRanges : Obligations.StepKeepsRanges := by
  rintro s t ⟨hcke, hrx, htx⟩ hstep
  refine ⟨step_keeps_cke_inv hstep hcke, ?_, ?_⟩
  · exact step_rx (P := Rx.Inv) hstep hrx (by decide) fun _ _ hchange => hchange.keeps_inv hrx
  · exact step_tx (P := Tx.Inv) hstep htx (by decide) fun _ _ hchange => hchange.keeps_inv htx

/-- Settles O59: of the changes of TX only TX_GO starts a frame, and only TX_STEP counts its bytes. -/
theorem txCountStaysWithinItsFrame : Obligations.TxCountStaysWithinItsFrame := by
  refine ⟨fun l => Tx.countWithin_of_idle rfl (Nat.zero_le _), fun s t l hinv hwithin hstep => ?_⟩
  obtain ⟨-, -, htx⟩ := hinv
  exact step_tx (P := s.tx.CountKept l) hstep (Tx.self_countKept hwithin) Tx.reset_countKept
    fun _ _ hchange => hchange.countKept htx hwithin

/-- Refutes O9: at `lengthLowered` the count is within the length, and TX_SET takes the length below it. -/
theorem not_txCountNeverExceedsLength : ¬ Obligations.TxCountNeverExceedsLength := by
  intro h
  obtain ⟨t, hstep, hlen, hpcnt⟩ := step_lengthLowered
  have hle := h lengthLowered t (by decide) (by decide) hstep
  rw [hlen, hpcnt] at hle
  exact absurd hle (by decide)

/-- Settles O21: each row of the matrix by what a command can change of that unit. -/
theorem accessMatrix : Obligations.AccessMatrix := by
  refine ⟨fun i s t hexec => ⟨?_, ?_, ?_, ?_, ?_, ?_⟩, fun _ _ _ _ => step_not_ok_sameBlock⟩
  · exact fun ⟨hclr, hupd⟩ => exec_cke_frame hexec hclr hupd
  · exact fun ⟨hrst, hpush⟩ => exec_rx_frame hexec hrst hpush
  · rintro x rfl
    rcases exec_rx hexec with hkept | hchange
    · simp [hkept]
    · exact Rx.push_registers hchange.push_eq
  · rintro ⟨hset, hrst⟩
    rcases exec_tx hexec with hkept | hchange
    · simp [hkept]
    · exact hchange.header hset hrst
  · rintro ⟨hgo, hstep, hrst⟩
    rcases exec_tx hexec with hkept | hchange
    · simp [hkept]
    · exact hchange.progress hgo hstep hrst
  · exact fun hread => exec_read_sameBlock hread hexec

/-- Settles O24: every field is read, the accumulators as a pair. -/
theorem readsDetermineTheBlock : Obligations.ReadsDetermineTheBlock := by
  intro s u hreads
  have halike : ReadAlike s u := hreads
  exact ⟨halike.cke_eq.symm, halike.rx_eq.symm, halike.tx_eq.symm⟩

/-- Settles O41: the phase from bit 8 on, and the eight bits below it one by one. -/
theorem rxStatusBits : Obligations.RxStatusBits := by
  intro r
  obtain ⟨hzero, hphase⟩ := r.status_phase
  obtain ⟨herr, hovr, hckerr, hcmdunk, hclserr, htyperr, hmagerr, hdone⟩ := r.status_bits
  exact ⟨hzero, hphase, herr, hovr, hckerr, hcmdunk, hclserr, htyperr, hmagerr, hdone.trans r.done_eq, by decide⟩

/-- Settles O52: the phase from bit 8 on, and the bits below it. -/
theorem txStatusBits : Obligations.TxStatusBits := by
  intro t
  obtain ⟨hzero, hphase⟩ := t.status_phase
  obtain ⟨hunused, hcode, hbusy, hdone⟩ := t.status_bits
  exact ⟨hzero, hphase, hunused, hcode.trans t.codeOk_eq, hbusy, hdone.trans t.done_eq, by decide⟩

/-- Settles O1: the reset state is closed data. -/
theorem resetValues : Obligations.ResetValues := by
  unfold Obligations.ResetValues
  decide

/-- Settles O7: the reset state is closed data, and before any byte no flag depends on the open command sets. -/
theorem resetHasInvariants : Obligations.ResetHasInvariants := by
  refine ⟨by decide, ?_⟩
  simp [State.reset, Rx.reset, Rx.FlagsAgree]

end Sys2Proof.Machine
end

section
/-! PROOFS. 20_memory.md: a command reads and writes only the unit it is addressed to (R74). -/

namespace Sys2Proof.Machine

/-! ### One unit, and what it determines (R74) -/

/-- In `s`, the command's effect on the unit it is addressed to and its response are settled by that unit alone: any
state with the same unit has the same effect there, the same response, and no other change. -/
inductive OwnUnitOnly (i : Instr) (s : State) : Prop
  | none (r : Response) (hunit : i.unit = Option.none) (hexec : ∀ u, exec i u = .next (u.answer r))
  | cke (c : Cke) (r : Response) (hunit : i.unit = some .cke)
      (hexec : ∀ u, u.cke = s.cke → exec i u = .next ((u.setCke c).answer r))
  | rx (x : Rx) (r : Response) (hunit : i.unit = some .rx)
      (hexec : ∀ u, u.rx = s.rx → exec i u = .next ((u.setRx x).answer r))
  | tx (t : Tx) (r : Response) (hunit : i.unit = some .tx)
      (hexec : ∀ u, u.tx = s.tx → exec i u = .next ((u.setTx t).answer r))

/-- An RX command whose meaning is to answer a view of RX. -/
theorem ownUnitOnly_of_rxRead {i : Instr} {s : State} (f : Rx → Word) (hunit : i.unit = some .rx)
    (hread : ∀ u, exec i u = answerOk u (f u.rx)) : OwnUnitOnly i s := by
  refine .rx s.rx (.ok (f s.rx)) hunit fun u hu => ?_
  rw [← hu]
  exact hread u

/-- A TX command whose meaning is to answer a view of TX. -/
theorem ownUnitOnly_of_txRead {i : Instr} {s : State} (f : Tx → Word) (hunit : i.unit = some .tx)
    (hread : ∀ u, exec i u = answerOk u (f u.tx)) : OwnUnitOnly i s := by
  refine .tx s.tx (.ok (f s.tx)) hunit fun u hu => ?_
  rw [← hu]
  exact hread u

/-- A TX command refused for what TX holds. -/
theorem ownUnitOnly_of_txRefused {i : Instr} {s : State} (hunit : i.unit = some .tx)
    (hrefused : ∀ u, u.tx = s.tx → exec i u = answerRefused u) : OwnUnitOnly i s := by
  refine .tx s.tx .refused hunit fun u hu => ?_
  rw [← hu]
  exact hrefused u hu

/-- BUSY, which is in TX, decides a TX_SET. -/
theorem ownUnitOnly_of_txWrite {i : Instr} {s : State} (set : Tx → Tx) (hunit : i.unit = some .tx)
    (hwrite : ∀ u, exec i u = txWrite set u) : OwnUnitOnly i s := by
  cases hbusy : s.tx.busy with
  | true => exact ownUnitOnly_of_txRefused hunit fun u hu => by simp [hwrite, txWrite, hu, hbusy]
  | false => exact .tx (set s.tx) (.ok 0) hunit fun u hu => by simp [hwrite, txWrite, answerOk, hu, hbusy]

/-- BUSY and CODEOK, which are in TX, decide TX_GO. -/
theorem ownUnitOnly_txGo (s : State) : OwnUnitOnly .txGo s := by
  rcases execTxGo_cases s with ⟨hrefused, -⟩ | ⟨hidle, hcode, -⟩
  · refine ownUnitOnly_of_txRefused rfl fun u hu => ?_
    rcases hrefused with hbusy | hcode
    · simp [exec, execTxGo, hu, hbusy]
    · simp [exec, execTxGo, hu, hcode]
  · exact .tx s.tx.start (.ok 0) rfl fun u hu => by simp [exec, execTxGo, answerOk, hu, hidle, hcode]

/-- Every command that has a next state acts on its own unit only. -/
theorem exec_ownUnitOnly {i : Instr} {s t : State} (h : exec i s = .next t) : OwnUnitOnly i s := by
  cases i with
  | nop => exact .none (.ok 0) rfl fun _ => rfl
  | reserved low => exact .none .illegal rfl fun _ => rfl
  | ckClr => exact .cke Cke.reset (.ok 0) rfl fun _ _ => rfl
  | ckUpd x =>
    refine .cke (s.cke.fold x) (.ok (s.cke.fold x).sum) rfl fun u hu => ?_
    rw [← hu]
    rfl
  | ckRd =>
    refine .cke s.cke (.ok s.cke.sum) rfl fun u hu => ?_
    rw [← hu]
    rfl
  | rxRst => exact .rx Rx.reset (.ok 0) rfl fun _ _ => rfl
  | rxPush x =>
    rcases execRxPush_cases x s with ⟨r, hpush, -⟩ | ⟨-, hfault⟩
    · exact .rx r (.ok (pushData s.rx.phase r)) rfl fun u hu => by simp [exec, execRxPush, answerOk, hu, hpush]
    · cases hfault.symm.trans h
  | rxRdStatus => exact ownUnitOnly_of_rxRead Rx.status rfl fun _ => rfl
  | rxRdLen => exact ownUnitOnly_of_rxRead Rx.len rfl fun _ => rfl
  | rxRdType => exact ownUnitOnly_of_rxRead (fun r => zext16 r.mtype) rfl fun _ => rfl
  | rxRdClass => exact ownUnitOnly_of_rxRead (fun r => zext16 r.mclass) rfl fun _ => rfl
  | rxRdCmd => exact ownUnitOnly_of_rxRead (fun r => zext16 r.cmd) rfl fun _ => rfl
  | rxRdCkw => exact ownUnitOnly_of_rxRead Rx.ckw rfl fun _ => rfl
  | rxRdCkc => exact ownUnitOnly_of_rxRead Rx.sum rfl fun _ => rfl
  | rxRdPcnt => exact ownUnitOnly_of_rxRead Rx.pcnt rfl fun _ => rfl
  | txSetLenLo v => exact ownUnitOnly_of_txWrite (fun t => { t with len := withLow t.len v }) rfl fun _ => rfl
  | txSetType v => exact ownUnitOnly_of_txWrite (fun t => { t with mtype := v }) rfl fun _ => rfl
  | txSetClass v => exact ownUnitOnly_of_txWrite (fun t => { t with mclass := v }) rfl fun _ => rfl
  | txSetCmd v => exact ownUnitOnly_of_txWrite (fun t => { t with cmd := v }) rfl fun _ => rfl
  | txSetLenHi v => exact ownUnitOnly_of_txWrite (fun t => { t with len := withHigh t.len v }) rfl fun _ => rfl
  | txGo => exact ownUnitOnly_txGo s
  | txStep x =>
    rcases execTxStep_cases x s with ⟨b, t', hemit, -⟩ | ⟨hnothing, -⟩ | ⟨-, hfault⟩
    · exact .tx t' (.ok (stepData s.tx.phase b)) rfl fun u hu => by simp [exec, execTxStep, answerOk, hu, hemit]
    · exact ownUnitOnly_of_txRefused rfl fun u hu => by simp [exec, execTxStep, hu, hnothing]
    · cases hfault.symm.trans h
  | txRdStatus => exact ownUnitOnly_of_txRead Tx.status rfl fun _ => rfl
  | txRdLen => exact ownUnitOnly_of_txRead Tx.len rfl fun _ => rfl
  | txRdType => exact ownUnitOnly_of_txRead (fun t => zext16 t.mtype) rfl fun _ => rfl
  | txRdClass => exact ownUnitOnly_of_txRead (fun t => zext16 t.mclass) rfl fun _ => rfl
  | txRdCmd => exact ownUnitOnly_of_txRead (fun t => zext16 t.cmd) rfl fun _ => rfl
  | txRdCk => exact ownUnitOnly_of_txRead Tx.sum rfl fun _ => rfl
  | txRdPcnt => exact ownUnitOnly_of_txRead Tx.pcnt rfl fun _ => rfl
  | txRst => exact .tx Tx.reset (.ok 0) rfl fun _ _ => rfl

/-- A unit the command is not addressed to is unchanged. -/
theorem exec_other_units {i : Instr} {s t : State} (h : exec i s = .next t) :
    (i.unit ≠ some .cke → t.cke = s.cke) ∧ (i.unit ≠ some .rx → t.rx = s.rx)
      ∧ (i.unit ≠ some .tx → t.tx = s.tx) := by
  cases exec_ownUnitOnly h with
  | none r hunit hexec =>
    cases (hexec s).symm.trans h
    exact ⟨fun _ => rfl, fun _ => rfl, fun _ => rfl⟩
  | cke c r hunit hexec =>
    cases (hexec s rfl).symm.trans h
    exact ⟨fun hne => absurd hunit hne, fun _ => rfl, fun _ => rfl⟩
  | rx x r hunit hexec =>
    cases (hexec s rfl).symm.trans h
    exact ⟨fun _ => rfl, fun hne => absurd hunit hne, fun _ => rfl⟩
  | tx y r hunit hexec =>
    cases (hexec s rfl).symm.trans h
    exact ⟨fun _ => rfl, fun _ => rfl, fun hne => absurd hunit hne⟩

/-! ### The statement -/

/-- Settles O22: the other units by `exec_other_units`; the second state runs the command as `OwnUnitOnly` says. -/
theorem unitsAreIndependent : Obligations.UnitsAreIndependent := by
  refine ⟨fun i s t h => exec_other_units h, fun i s u t r hcke hrx htx h hret => ?_⟩
  cases exec_ownUnitOnly h with
  | none r' hunit hexec =>
    cases (hexec s).symm.trans h
    obtain rfl := returned_unique hret (answer_returned s r')
    exact ⟨_, hexec u, answer_returned u r, by simp [hunit]⟩
  | cke c r' hunit hexec =>
    cases (hexec s rfl).symm.trans h
    obtain rfl := returned_unique hret (setCke_answer_returned s c r')
    exact ⟨_, hexec u (hcke hunit).symm, setCke_answer_returned u c r, by simp [hunit]⟩
  | rx x r' hunit hexec =>
    cases (hexec s rfl).symm.trans h
    obtain rfl := returned_unique hret (setRx_answer_returned s x r')
    exact ⟨_, hexec u (hrx hunit).symm, setRx_answer_returned u x r, by simp [hunit]⟩
  | tx y r' hunit hexec =>
    cases (hexec s rfl).symm.trans h
    obtain rfl := returned_unique hret (setTx_answer_returned s y r')
    exact ⟨_, hexec u (htx hunit).symm, setTx_answer_returned u y r, by simp [hunit]⟩

end Sys2Proof.Machine
end

section
/-! PROOFS. 30_encoding.md: the forms of a command word and which words encode a command (R92 to R97, R99), the response
word (R91), the data TX_STEP ignores (R93), the wire frame's layout (R80), `known` (R86) and the pseudo-instructions (R102). -/

namespace Sys2Proof

/-! ### What the decoder's forms accept (R93) -/

@[simp] theorem decodeNone_eq_ok {sel : Nibble} {data : Byte} {i j : Instr} :
    decodeNone sel data i = .ok j ↔ sel = 0 ∧ data = 0 ∧ i = j := by
  unfold decodeNone
  split
  · simp_all
  · split <;> simp_all

@[simp] theorem decodeByte_eq_ok {sel : Nibble} {i j : Instr} : decodeByte sel i = .ok j ↔ sel = 0 ∧ i = j := by
  unfold decodeByte
  split <;> simp_all

@[simp] theorem decodeSel_eq_ok {found : Option Instr} {j : Instr} : decodeSel found = .ok j ↔ found = some j := by
  cases found <;> simp [decodeSel]

@[simp] theorem decodeRead_eq_ok {found : Option Instr} {data : Byte} {j : Instr} :
    decodeRead found data = .ok j ↔ data = 0 ∧ found = some j := by
  unfold decodeRead
  split <;> simp_all

/-! ### The selectors (R94 to R96) -/

theorem encode_of_rxRdSel {sel : Nibble} : ∀ i ∈ rxRdSel sel, encode i = mkWord 0x6 sel 0 ∧ i.isCommand = true := by
  revert sel
  decide

theorem encode_of_txRdSel {sel : Nibble} : ∀ i ∈ txRdSel sel, encode i = mkWord 0xA sel 0 ∧ i.isCommand = true := by
  revert sel
  decide

theorem encode_of_txSetSel {sel : Nibble} {v : Byte} :
    ∀ i ∈ txSetSel sel v, encode i = mkWord 0x7 sel v ∧ i.isCommand = true := by
  intro i hfound
  unfold txSetSel at hfound
  split at hfound
  case h_6 => cases hfound
  all_goals
    next hsel =>
      cases hfound
      rw [(BitVec.toNat_eq_nat.mp hsel).2]
      exact ⟨rfl, rfl⟩

theorem rxRdSel_isSome (sel : Nibble) : (rxRdSel sel).isSome = decide (sel.toNat < 8) := by
  revert sel
  decide

theorem txRdSel_isSome (sel : Nibble) : (txRdSel sel).isSome = decide (sel.toNat < 7) := by
  revert sel
  decide

theorem txSetSel_isSome (sel : Nibble) (v : Byte) :
    (txSetSel sel v).isSome = decide (sel.toNat ∈ [1, 2, 3, 4, 9]) := by
  unfold txSetSel
  split <;> simp_all

/-! ### The form of a command word, by its `op` (R92) -/

/-- What the decoder does with the words of an `op`. The forms of R92: no operand, a byte operand, a register to read,
a register byte to write; and the table's "(reserved)" row (R221). -/
inductive OpForm (op : Nibble) : Prop
  | noOperand (i : Instr) (hcommand : i.isCommand = true) (hop : op.toNat ∈ [0x0, 0x1, 0x3, 0x4, 0x8, 0xB])
      (hencode : encode i = mkWord op 0 0)
      (hdecode : ∀ w, opField w = op → decode w = decodeNone (selField w) (dataField w) i)
  | byteOperand (i : Byte → Instr) (hcommand : ∀ x, (i x).isCommand = true) (hop : op.toNat ∈ [0x2, 0x5, 0x9])
      (hencode : ∀ x, encode (i x) = mkWord op 0 x)
      (hdecode : ∀ w, opField w = op → decode w = decodeByte (selField w) (i (dataField w)))
  | rxRead (hop : op = 0x6)
      (hdecode : ∀ w, opField w = op → decode w = decodeRead (rxRdSel (selField w)) (dataField w))
  | txRead (hop : op = 0xA)
      (hdecode : ∀ w, opField w = op → decode w = decodeRead (txRdSel (selField w)) (dataField w))
  | txSet (hop : op = 0x7)
      (hdecode : ∀ w, opField w = op → decode w = decodeSel (txSetSel (selField w) (dataField w)))
  | reserved (hop : 0xC ≤ op.toNat)
      (hdecode : ∀ w, opField w = op → decode w = .ok (.reserved (w.extractLsb' 0 14)))

theorem op_cases (op : Nibble) :
    op = 0x0 ∨ op = 0x1 ∨ op = 0x2 ∨ op = 0x3 ∨ op = 0x4 ∨ op = 0x5 ∨ op = 0x6 ∨ op = 0x7 ∨ op = 0x8 ∨ op = 0x9
      ∨ op = 0xA ∨ op = 0xB ∨ 0xC ≤ op.toNat := by
  revert op
  decide

theorem decode_of_reserved_op {w : Word} (hop : 0xC ≤ (opField w).toNat) :
    decode w = .ok (.reserved (w.extractLsb' 0 14)) := by
  unfold decode
  split
  case h_13 => rfl
  all_goals omega

theorem opForm (op : Nibble) : OpForm op := by
  rcases op_cases op with rfl | rfl | rfl | rfl | rfl | rfl | rfl | rfl | rfl | rfl | rfl | rfl | hop
  · exact .noOperand .nop rfl (by decide) rfl fun w hw => by rw [decode, hw]; rfl
  · exact .noOperand .ckClr rfl (by decide) rfl fun w hw => by rw [decode, hw]; rfl
  · exact .byteOperand .ckUpd (fun _ => rfl) (by decide) (fun _ => rfl) fun w hw => by rw [decode, hw]; rfl
  · exact .noOperand .ckRd rfl (by decide) rfl fun w hw => by rw [decode, hw]; rfl
  · exact .noOperand .rxRst rfl (by decide) rfl fun w hw => by rw [decode, hw]; rfl
  · exact .byteOperand .rxPush (fun _ => rfl) (by decide) (fun _ => rfl) fun w hw => by rw [decode, hw]; rfl
  · exact .rxRead rfl fun w hw => by rw [decode, hw]; rfl
  · exact .txSet rfl fun w hw => by rw [decode, hw]; rfl
  · exact .noOperand .txGo rfl (by decide) rfl fun w hw => by rw [decode, hw]; rfl
  · exact .byteOperand .txStep (fun _ => rfl) (by decide) (fun _ => rfl) fun w hw => by rw [decode, hw]; rfl
  · exact .txRead rfl fun w hw => by rw [decode, hw]; rfl
  · exact .noOperand .txRst rfl (by decide) rfl fun w hw => by rw [decode, hw]; rfl
  · exact .reserved hop fun w hw => decode_of_reserved_op (hw ▸ hop)

/-! ### The reserved words (R221) -/

theorem encode_reserved_toNat (low : BitVec 14) : (encode (.reserved low)).toNat = 0xC000 + low.toNat := by
  rw [encode, BitVec.toNat_append, ← Nat.shiftLeft_add_eq_or_of_lt low.isLt, Nat.shiftLeft_eq]
  rfl

theorem decode_encode_reserved (low : BitVec 14) : decode (encode (.reserved low)) = .ok (.reserved low) := by
  have hop : 0xC ≤ (opField (encode (.reserved low))).toNat := by
    rw [opField_toNat, encode_reserved_toNat]
    omega
  rw [decode_of_reserved_op hop, encode, BitVec.extractLsb'_append_eq_right]

theorem encode_reserved_of_op {w : Word} (hop : 0xC ≤ (opField w).toNat) :
    encode (.reserved (w.extractLsb' 0 14)) = w := by
  apply BitVec.eq_of_toNat_eq
  have hlt := w.isLt
  rw [opField_toNat] at hop
  rw [encode_reserved_toNat, BitVec.extractLsb'_toNat, Nat.shiftRight_zero]
  omega

/-! ### Decoding and encoding are inverse to one another (R99) -/

theorem decode_encode (i : Instr) : decode (encode i) = .ok i := by
  cases i with
  | reserved low => exact decode_encode_reserved low
  | ckUpd x | rxPush x | txStep x => simp [decode, encode]
  | txSetLenLo v | txSetType v | txSetClass v | txSetCmd v | txSetLenHi v => simp [decode, encode, txSetSel]
  | _ => rfl

theorem encode_injective {i j : Instr} (h : encode i = encode j) : i = j := by
  have hdecode := decode_encode i
  rw [h, decode_encode j] at hdecode
  exact (Except.ok.inj hdecode).symm

/-- The decoder accepts a word only if each of its three fields is the one the encoder writes. -/
theorem encode_of_decode {w : Word} {i : Instr} (h : decode w = .ok i) : encode i = w := by
  conv_rhs => rw [← mkWord_fields w]
  cases opForm (opField w) with
  | noOperand j _ _ hencode hdecode =>
    obtain ⟨hsel, hdata, rfl⟩ := decodeNone_eq_ok.mp ((hdecode w rfl).symm.trans h)
    rw [hencode, hsel, hdata]
  | byteOperand j _ _ hencode hdecode =>
    obtain ⟨hsel, rfl⟩ := decodeByte_eq_ok.mp ((hdecode w rfl).symm.trans h)
    rw [hencode, hsel]
  | rxRead hop hdecode =>
    obtain ⟨hdata, hfound⟩ := decodeRead_eq_ok.mp ((hdecode w rfl).symm.trans h)
    obtain ⟨hencode, -⟩ := encode_of_rxRdSel i hfound
    rw [hencode, hop, hdata]
  | txRead hop hdecode =>
    obtain ⟨hdata, hfound⟩ := decodeRead_eq_ok.mp ((hdecode w rfl).symm.trans h)
    obtain ⟨hencode, -⟩ := encode_of_txRdSel i hfound
    rw [hencode, hop, hdata]
  | txSet hop hdecode =>
    have hfound := decodeSel_eq_ok.mp ((hdecode w rfl).symm.trans h)
    obtain ⟨hencode, -⟩ := encode_of_txSetSel i hfound
    rw [hencode, hop]
  | reserved hop hdecode =>
    cases (hdecode w rfl).symm.trans h
    rw [mkWord_fields, encode_reserved_of_op hop]

/-! ### The clauses of R97, form by form -/

theorem illegalFields_noOperand {op : Nat} (hop : op ∈ [0x0, 0x1, 0x3, 0x4, 0x8, 0xB]) (sel data : Nat) :
    illegalFields op sel data = (sel != 0 || data != 0) := by
  simp only [List.mem_cons, List.not_mem_nil, or_false] at hop
  rcases hop with rfl | rfl | rfl | rfl | rfl | rfl <;> simp [illegalFields]

theorem illegalFields_byteOperand {op : Nat} (hop : op ∈ [0x2, 0x5, 0x9]) (sel data : Nat) :
    illegalFields op sel data = (sel != 0) := by
  simp only [List.mem_cons, List.not_mem_nil, or_false] at hop
  rcases hop with rfl | rfl | rfl <;> simp [illegalFields]

theorem illegalFields_rxRead (sel data : Nat) : illegalFields 0x6 sel data = (decide (8 ≤ sel) || data != 0) := by
  simp [illegalFields]

theorem illegalFields_txRead (sel data : Nat) : illegalFields 0xA sel data = (decide (7 ≤ sel) || data != 0) := by
  simp [illegalFields]

theorem illegalFields_txSet (sel data : Nat) : illegalFields 0x7 sel data = decide (sel ∉ [1, 2, 3, 4, 9]) := by
  simp [illegalFields, Bool.beq_eq_decide_eq, Bool.and_assoc]

theorem illegalFields_reserved {op : Nat} (hop : 0xC ≤ op) (sel data : Nat) : illegalFields op sel data = true := by
  simp [illegalFields, hop]

theorem illegalFields_iff {op sel data : Nat} :
    illegalFields op sel data = true ↔
      0xC ≤ op ∨ (op = 0x6 ∧ 8 ≤ sel) ∨ (op = 0xA ∧ 7 ≤ sel) ∨ (op = 0x7 ∧ sel ∉ [1, 2, 3, 4, 9])
        ∨ (op ∈ [0x6, 0xA] ∧ data ≠ 0)
        ∨ (op ∈ [0x0, 0x1, 0x3, 0x4, 0x8, 0xB] ∧ (sel ≠ 0 ∨ data ≠ 0))
        ∨ (op ∈ [0x2, 0x5, 0x9] ∧ sel ≠ 0) := by
  simp [illegalFields, or_assoc, and_assoc]

theorem legalWord_eq_fields (w : Word) :
    legalWord w = !illegalFields (opField w).toNat (selField w).toNat (dataField w).toNat := by
  rw [legalWord, opField_toNat, selField_toNat, dataField_toNat]

/-! ### The decoder accepts exactly the words R97 leaves -/

/-- The word encodes a command of R92. -/
def encodesCommand (w : Word) : Bool :=
  match decode w with
  | .ok i => i.isCommand
  | .error _ => false

theorem encodesCommand_iff {w : Word} : encodesCommand w = true ↔ ∃ i, decode w = .ok i ∧ i.isCommand = true := by
  unfold encodesCommand
  cases decode w <;> simp

theorem exists_command_iff_isSome {found : Option Instr} (hcommand : ∀ i ∈ found, i.isCommand = true) :
    (∃ i, found = some i ∧ i.isCommand = true) ↔ found.isSome = true := by
  rw [Option.isSome_iff_exists]
  exact exists_congr fun i => and_iff_left_of_imp (hcommand i)

/-- Decoder and R97 agree: in each form of `op` they ask the same of `sel` and `data`. -/
theorem encodesCommand_eq_legalWord (w : Word) : encodesCommand w = legalWord w := by
  rw [Bool.eq_iff_iff, encodesCommand_iff, legalWord_eq_fields]
  cases opForm (opField w) with
  | noOperand i hcommand hop _ hdecode =>
    simp [hdecode w rfl, illegalFields_noOperand hop, hcommand, and_assoc, ← BitVec.toNat_inj]
  | byteOperand i hcommand hop _ hdecode =>
    simp [hdecode w rfl, illegalFields_byteOperand hop, hcommand, ← BitVec.toNat_inj]
  | rxRead hop hdecode =>
    have hfound := exists_command_iff_isSome fun i hi => (encode_of_rxRdSel (sel := selField w) i hi).right
    simp [hdecode w rfl, hop, illegalFields_rxRead, and_assoc, hfound, rxRdSel_isSome, and_comm, ← BitVec.toNat_inj]
  | txRead hop hdecode =>
    have hfound := exists_command_iff_isSome fun i hi => (encode_of_txRdSel (sel := selField w) i hi).right
    simp [hdecode w rfl, hop, illegalFields_txRead, and_assoc, hfound, txRdSel_isSome, and_comm, ← BitVec.toNat_inj]
  | txSet hop hdecode =>
    have hfound := exists_command_iff_isSome fun i hi =>
      (encode_of_txSetSel (sel := selField w) (v := dataField w) i hi).right
    simp [hdecode w rfl, hop, illegalFields_txSet, hfound, txSetSel_isSome]
  | reserved hop hdecode => simp [hdecode w rfl, illegalFields_reserved hop, Instr.isCommand]

/-! ### How many words encode a command (R99) -/

/-- A count over `m` blocks of `n` numbers each. -/
theorem countP_range_mul {p : Nat → Bool} {n m : Nat} {f : Nat → Nat}
    (hblock : ∀ b < m, (List.range n).countP (fun k => p (b * n + k)) = f b) :
    (List.range (m * n)).countP p = ((List.range m).map f).sum := by
  induction m with
  | zero => simp
  | succ m ih =>
    have hblocks := ih fun b hb => hblock b (by omega)
    have hlast := hblock m (by omega)
    rw [Nat.succ_mul, List.range_add, List.countP_append, List.countP_map, List.range_succ, List.map_append,
      List.sum_append, hblocks]
    simpa [Function.comp_def] using hlast

/-- Of `data`, R97 asks no more than whether it is 0. -/
theorem illegalFields_data_succ (op sel data : Nat) : illegalFields op sel (data + 1) = illegalFields op sel 1 := by
  simp [illegalFields]

/-- How many of the 256 words with these `op` and `sel` encode a command: of the 255 with `data` not 0 all or none, and
the one with `data` 0 or not. -/
def commandsWith (op sel : Nat) : Nat := 255 * (!illegalFields op sel 1).toNat + (!illegalFields op sel 0).toNat

theorem countP_data (op sel : Nat) :
    (List.range 256).countP (fun data => !illegalFields op sel data) = commandsWith op sel := by
  rw [List.range_succ_eq_map, List.countP_cons, List.countP_map]
  simp only [Function.comp_def, Nat.succ_eq_add_one, illegalFields_data_succ, commandsWith]
  cases illegalFields op sel 1 <;> cases illegalFields op sel 0 <;> simp

theorem legalWord_ofNat {op sel data : Nat} (hop : op < 16) (hsel : sel < 16) (hdata : data < 256) :
    legalWord (BitVec.ofNat 16 (op * (16 * 256) + (sel * 256 + data))) = !illegalFields op sel data := by
  rw [legalWord, BitVec.toNat_ofNat]
  congr 2 <;> omega

theorem countP_legalWord_data {op sel : Nat} (hop : op < 16) (hsel : sel < 16) :
    (List.range 256).countP (fun data => legalWord (BitVec.ofNat 16 (op * (16 * 256) + (sel * 256 + data))))
      = commandsWith op sel := by
  rw [← countP_data]
  refine List.countP_congr fun data hdata => ?_
  rw [legalWord_ofNat hop hsel (List.mem_range.mp hdata)]

/-- R99's counts, `op` by `op`: 1 for a command with no operand, 256 for one with a byte operand, 8 RX_RD and 7 TX_RD
selectors, 5 times 256 TX_SET forms, and none for a reserved `op`. -/
theorem commands_by_op :
    (List.range 16).map (fun op => ((List.range 16).map (commandsWith op)).sum)
      = [1, 1, 256, 1, 1, 256, 8, 5 * 256, 1, 256, 7, 1, 0, 0, 0, 0] := by
  decide

theorem countP_legalWord : (List.range (16 * (16 * 256))).countP (fun n => legalWord (BitVec.ofNat 16 n)) = 2069 := by
  rw [countP_range_mul fun op hop => countP_range_mul fun sel hsel => countP_legalWord_data hop hsel, commands_by_op]
  rfl

end Sys2Proof

namespace Sys2Proof.Machine

/-! ### The response word (R91) -/

theorem Response.word_data (r : Response) : r.word.extractLsb' 0 16 = r.data := BitVec.extractLsb'_append_eq_right

theorem Response.word_st (r : Response) : r.word.extractLsb' 16 2 = r.st.code := BitVec.extractLsb'_append_eq_left

theorem CmdStatus.code_ne_three (st : CmdStatus) : st.code ≠ 0b11#2 := by cases st <;> decide

/-- Between two states the command on the port is answered, and an answer that is not OK carries 0x0000 (R91). -/
def AnsweredInForm (s t : State) : Prop := ∃ r, Returned s t r ∧ (r.st ≠ .ok → r.data = 0x0000)

theorem answeredInForm_of_answerOk {s u t : State} {v : Word} (h : answerOk u v = .next t) (hport : u.port = s.port) :
    AnsweredInForm s t := by
  rw [answerOk_next.mp h]
  exact ⟨.ok v, by simp [Returned, hport], fun hst => absurd rfl hst⟩

theorem answeredInForm_of_answerRefused {s t : State} (h : answerRefused s = .next t) : AnsweredInForm s t := by
  rw [answerRefused_next.mp h]
  exact ⟨.refused, answer_returned s _, fun _ => rfl⟩

theorem answeredInForm_of_answerIllegal {s t : State} (h : answerIllegal s = .next t) : AnsweredInForm s t := by
  rw [answerIllegal_next.mp h]
  exact ⟨.illegal, answer_returned s _, fun _ => rfl⟩

theorem exec_txSet {i : Instr} (hset : i.isTxSet = true) : ∃ set, ∀ s, exec i s = txWrite set s := by
  cases i with
  | txSetLenLo v => exact ⟨fun t => { t with len := withLow t.len v }, fun _ => rfl⟩
  | txSetType v => exact ⟨fun t => { t with mtype := v }, fun _ => rfl⟩
  | txSetClass v => exact ⟨fun t => { t with mclass := v }, fun _ => rfl⟩
  | txSetCmd v => exact ⟨fun t => { t with cmd := v }, fun _ => rfl⟩
  | txSetLenHi v => exact ⟨fun t => { t with len := withHigh t.len v }, fun _ => rfl⟩
  | _ => cases hset

theorem exec_txSet_answeredInForm {i : Instr} {s t : State} (hset : i.isTxSet = true) (h : exec i s = .next t) :
    AnsweredInForm s t := by
  obtain ⟨set, hwrite⟩ := exec_txSet hset
  rw [hwrite] at h
  rcases txWrite_cases set s with ⟨-, hout⟩ | ⟨-, hout⟩
  · exact answeredInForm_of_answerRefused (hout.symm.trans h)
  · exact answeredInForm_of_answerOk (hout.symm.trans h) rfl

theorem exec_answeredInForm {i : Instr} {s t : State} (h : exec i s = .next t) : AnsweredInForm s t := by
  cases i with
  | reserved low => exact answeredInForm_of_answerIllegal h
  | rxPush x =>
    rcases execRxPush_cases x s with ⟨r, -, hout⟩ | ⟨-, hout⟩
    · exact answeredInForm_of_answerOk (hout.symm.trans h) rfl
    · cases hout.symm.trans h
  | txSetLenLo | txSetType | txSetClass | txSetCmd | txSetLenHi => exact exec_txSet_answeredInForm rfl h
  | txGo =>
    rcases execTxGo_cases s with ⟨-, hout⟩ | ⟨-, -, hout⟩
    · exact answeredInForm_of_answerRefused (hout.symm.trans h)
    · exact answeredInForm_of_answerOk (hout.symm.trans h) rfl
  | txStep x =>
    rcases execTxStep_cases x s with ⟨b, u, -, hout⟩ | ⟨-, hout⟩ | ⟨-, hout⟩
    · exact answeredInForm_of_answerOk (hout.symm.trans h) rfl
    · exact answeredInForm_of_answerRefused (hout.symm.trans h)
    · cases hout.symm.trans h
  | _ => exact answeredInForm_of_answerOk h rfl

theorem step_answeredInForm {s t : State} {w : Word} (hport : OnPort s w) (h : step s = .next t) :
    AnsweredInForm s t := by
  rcases step_cases s with ⟨hidle, -⟩ | ⟨_, hreset, -⟩ | ⟨_, _, i, -, -, hstep⟩ | ⟨_, _, _, -, -, hstep⟩
  · rw [OnPort, hidle] at hport
    cases hport
  · rw [OnPort, hreset] at hport
    cases hport
  · exact exec_answeredInForm (hstep.symm.trans h)
  · exact answeredInForm_of_answerIllegal (hstep.symm.trans h)

/-! ### TX_STEP outside PAYLOAD (R93) -/

theorem Tx.emit_eq_of_not_payload {t : Tx} (hphase : t.phase ≠ 7) (x y : Byte) : t.emit x = t.emit y := by
  unfold Tx.emit
  cases hp : phaseOf t.phase with
  | none => rfl
  | some p =>
    cases p with
    | payload => exact absurd (phaseOf_eq_some.mp hp) hphase
    | _ => rfl

/-! ### The wire frame (R80, R81, R83, R87) -/

theorem lowByte_ofNat (n : Nat) : lowByte (BitVec.ofNat 16 n) = BitVec.ofNat 8 (n % 256) := by
  apply BitVec.eq_of_toNat_eq
  simp [lowByte]

theorem highByte_ofNat {n : Nat} (hn : n ≤ 65535) : highByte (BitVec.ofNat 16 n) = BitVec.ofNat 8 (n / 256) := by
  apply BitVec.eq_of_toNat_eq
  simp only [highByte, BitVec.extractLsb'_toNat, BitVec.toNat_ofNat, Nat.shiftRight_eq_div_pow]
  omega

theorem TxFrame.payload_length_le {f : TxFrame} (h : f.wellFormed = true) : f.payload.length ≤ 65535 := by
  simp only [TxFrame.wellFormed, Bool.and_eq_true, decide_eq_true_eq] at h
  exact h.right

theorem encodeFrame_length (f : TxFrame) : (encodeFrame f).length = 9 + f.payload.length := by
  simp only [encodeFrame, List.length_append, List.length_cons, List.length_nil]
  omega

/-- After the seven header bytes come the payload and the checksum. -/
theorem encodeFrame_getElem?_body (f : TxFrame) (k : Nat) :
    (encodeFrame f)[7 + k]? = (f.payload ++ [lowByte f.sum, highByte f.sum])[k]? := by
  rw [Nat.add_comm]
  rfl

/-- After the payload come the two checksum bytes. -/
theorem encodeFrame_getElem?_checksum (f : TxFrame) (k : Nat) :
    (encodeFrame f)[7 + (f.payload.length + k)]? = [lowByte f.sum, highByte f.sum][k]? := by
  rw [encodeFrame_getElem?_body, List.getElem?_append_right (Nat.le_add_right _ k), Nat.add_sub_cancel_left]

/-! ### The taxonomy (R86) -/

theorem known_iff {c k : Byte} :
    known c k = true ↔ (c = 0x00 ∧ reportingCmds k = true) ∨ (c = 0x04 ∧ systemCmds k = true) := by
  simp [known]

/-! ### The statements -/

/-- Settles O13: the fields `encode` writes are the ones `decode` reads. -/
theorem decodeOfEncode : Obligations.DecodeOfEncode := decode_encode

/-- Settles O14: by the form of the word's `op`, the decoder accepts only the fields the encoder writes. -/
theorem encodeOfDecode : Obligations.EncodeOfDecode := fun _ _ => encode_of_decode

/-- Settles O15: the decoder agrees with `legalWord`, and `encode` is injective because `decode` undoes it. -/
theorem illegalWordsExactly : Obligations.IllegalWordsExactly := by
  intro w
  have hop : (opField w).toNat ≤ 0xF := Nat.le_of_lt_succ (opField w).isLt
  refine ⟨?_, fun i j hi hj => encode_injective (hi.trans hj.symm)⟩
  rw [← encodesCommand_iff, encodesCommand_eq_legalWord, legalWord_eq_fields, Bool.not_eq_true, Bool.not_eq_false',
    illegalFields_iff, and_iff_left hop]

/-- Settles O19: the word's two fields by its layout, and a step's response by what exec and the port answer. -/
theorem responseWordFormat : Obligations.ResponseWordFormat := by
  refine ⟨fun r => ⟨r.word_data, ?_⟩, fun r => ?_, fun s t w hport hstep => ?_⟩
  · rw [r.word_st]
    cases r.st <;> rfl
  · rw [r.word_st]
    exact r.st.code_ne_three
  · obtain ⟨r, hret, hdata⟩ := step_answeredInForm hport hstep
    exact ⟨r, hret, fun hst => ⟨hdata hst, step_not_ok_sameBlock hport hstep hret hst⟩⟩

/-- Settles O50: TX_STEP's outcome depends on the host's byte through `Tx.emit` alone. -/
theorem txStepIgnoresDataOutsidePayload : Obligations.TxStepIgnoresDataOutsidePayload := by
  intro x y s hphase
  change execTxStep x s = execTxStep y s
  rw [execTxStep, execTxStep, Tx.emit_eq_of_not_payload hphase x y]

/-- Settles O54: the header bytes by position, the payload and the checksum by their distance from the header. -/
theorem encodedFrameLayout : Obligations.EncodedFrameLayout := by
  intro f hf
  have hlen := TxFrame.payload_length_le hf
  refine ⟨encodeFrame_length f, rfl, rfl, ?_, ?_, rfl, rfl, rfl, fun i hi => ?_, ?_, ?_⟩
  · exact congrArg some (lowByte_ofNat f.payload.length)
  · exact congrArg some (highByte_ofNat hlen)
  · rw [encodeFrame_getElem?_body, List.getElem?_append_left hi]
  · exact encodeFrame_getElem?_checksum f 0
  · rw [show 8 + f.payload.length = 7 + (f.payload.length + 1) by omega]
    exact encodeFrame_getElem?_checksum f 1

/-- Settles O16: the command words are the legal words, counted `op` by `op`, and the others are the rest of 65536. -/
theorem commandWordCount : Obligations.CommandWordCount := by
  unfold Obligations.CommandWordCount
  intro isCommandWord
  have hpred : isCommandWord = fun n => legalWord (BitVec.ofNat 16 n) :=
    funext fun n => encodesCommand_eq_legalWord (BitVec.ofNat 16 n)
  have hlegal : ((List.range 65536).filter isCommandWord).length = 2069 := by
    rw [← List.countP_eq_length_filter, hpred]
    exact countP_legalWord
  have hall := (List.range 65536).length_eq_length_filter_add isCommandWord
  rw [hlegal, List.length_range] at hall
  exact ⟨hlegal, by omega⟩

/-- Settles O17: each word is closed, and the decoder evaluates on it. -/
theorem decodesWordsOfTheSpec : Obligations.DecodesWordsOfTheSpec :=
  ⟨rfl, rfl, rfl, rfl, rfl, rfl, rfl, rfl, rfl, rfl, rfl, rfl⟩

/-- Settles O43: by `known_iff`, and the settled members of the two command sets. -/
theorem knownFollowsTheCommandSets : Obligations.KnownFollowsTheCommandSets := by
  refine ⟨fun c k => known_iff, fun c k hreporting hsystem => ?_, ?_, ?_, ?_, ?_⟩
  · rw [← Bool.not_eq_true, known_iff]
    rintro (⟨hc, -⟩ | ⟨hc, -⟩)
    · exact hreporting hc
    · exact hsystem hc
  · exact known_iff.mpr (.inl ⟨rfl, reportingCmds_iff.mpr (.inl rfl)⟩)
  · exact known_iff.mpr (.inl ⟨rfl, reportingCmds_iff.mpr (.inr (.inl rfl))⟩)
  · exact known_iff.mpr (.inr ⟨rfl, systemCmds_iff.mpr (.inl rfl)⟩)
  · exact known_iff.mpr (.inr ⟨rfl, systemCmds_iff.mpr (.inr (.inl rfl))⟩)

/-- Settles O58: `encode` goes through each expansion, and its words are those of R92 for every operand. -/
theorem pseudoInstructionExpansions : Obligations.PseudoInstructionExpansions := by
  refine ⟨fun bs => ?_, fun bs => ?_, fun t c k l => rfl, fun t c k p => ?_⟩
  · rw [AsmLine.words, ckSumInstrs, List.map_append, List.map_cons, List.map_map]
    rfl
  · rw [AsmLine.words, rxFeedInstrs, List.map_map]
    rfl
  · simp only [AsmLine.words, txFrameInstrs, txStepInstrs, List.map_append, List.map_cons, List.map_map,
      List.map_replicate, List.append_assoc]
    rfl

end Sys2Proof.Machine
end

section
/-! PROOFS. 40_checksum.md: the checksum step (R121), the function in closed form (R120, R122), its properties (R123), and
the commands of CKE (R124 to R127). -/

namespace Sys2Proof.Machine

/-! ### The step with 9-bit sums (R121) -/

/-- The sum of two bytes modulo 255, as R121 forms it: a 9-bit sum and one conditional subtraction. -/
def nineBitAdd (u v : Byte) : Byte :=
  let s : BitVec 9 := u.setWidth 9 + v.setWidth 9
  if 255 ≤ s.toNat then (s - 255).setWidth 8 else s.setWidth 8

/-- One subtraction is enough because the sum is at most 0xFE + 0xFF = 509. -/
theorem nineBitAdd_toNat {u : Byte} (hu : AccumulatorOk u) (v : Byte) :
    (nineBitAdd u v).toNat = (u.toNat + v.toNat) % 255 := by
  have hv := v.isLt
  have hsum : (u.setWidth 9 + v.setWidth 9).toNat = u.toNat + v.toNat := by
    simp only [BitVec.toNat_add, BitVec.toNat_setWidth]
    omega
  simp only [nineBitAdd, hsum]
  split
  · simp only [BitVec.toNat_setWidth, BitVec.toNat_sub, hsum, BitVec.ofNat_eq_ofNat, BitVec.toNat_ofNat]
    omega
  · rw [BitVec.toNat_setWidth, hsum]
    omega

theorem ckstep_eq_nineBitAdd {a b : Byte} (ha : AccumulatorOk a) (hb : AccumulatorOk b) (x : Byte) :
    ckstep a b x = (nineBitAdd a x, nineBitAdd b (nineBitAdd a x)) := by
  ext1 <;> apply BitVec.eq_of_toNat_eq
  · rw [ckstep_a_toNat, nineBitAdd_toNat ha]
  · rw [ckstep_b_toNat, nineBitAdd_toNat hb, nineBitAdd_toNat ha]

/-! ### The accumulators after a list, in closed form (R120) -/

theorem foldBytes_concat (ab : Byte × Byte) (xs : List Byte) (x : Byte) :
    foldBytes ab (xs ++ [x]) = ckstep (foldBytes ab xs).1 (foldBytes ab xs).2 x := by
  rw [foldBytes_append, foldBytes_cons, foldBytes_nil]

@[simp] theorem lowByte_checksum (xs : List Byte) : lowByte (checksum xs) = (foldBytes (0, 0) xs).1 := by
  rw [checksum_eq_foldBytes, lowByte_pack]

@[simp] theorem highByte_checksum (xs : List Byte) : highByte (checksum xs) = (foldBytes (0, 0) xs).2 := by
  rw [checksum_eq_foldBytes, highByte_pack]

theorem foldBytes_fst_toNat (xs : List Byte) :
    (foldBytes (0, 0) xs).1.toNat = (xs.map BitVec.toNat).sum % 255 := by
  induction xs using List.reverseRecOn with
  | nil => rfl
  | append_singleton xs x ih =>
    rw [foldBytes_concat, ckstep_a_toNat, ih, List.map_append, List.sum_append]
    simp

/-- A number at the end of a list adds one running sum, that of the whole list. -/
theorem sum_running_sums_concat (ns : List Nat) (n : Nat) :
    ((ns ++ [n]).inits.map List.sum).sum = (ns.inits.map List.sum).sum + (ns ++ [n]).sum := by
  simp [List.inits_append]

theorem foldBytes_snd_toNat (xs : List Byte) :
    (foldBytes (0, 0) xs).2.toNat = (((xs.map BitVec.toNat).inits.map List.sum).sum) % 255 := by
  induction xs using List.reverseRecOn with
  | nil => rfl
  | append_singleton xs x ih =>
    rw [List.map_append, List.map_singleton, sum_running_sums_concat, foldBytes_concat, ckstep_b_toNat, ih,
      foldBytes_fst_toNat, List.sum_append]
    simp

/-! ### Properties of the checksum (R123) -/

theorem foldBytes_accumulatorOk (xs : List Byte) :
    AccumulatorOk (foldBytes (0, 0) xs).1 ∧ AccumulatorOk (foldBytes (0, 0) xs).2 := by
  rw [AccumulatorOk, AccumulatorOk, foldBytes_fst_toNat, foldBytes_snd_toNat]
  omega

/-- 255 is 0 modulo 255. -/
theorem ckstep_ff (a b : Byte) : ckstep a b 0xFF = ckstep a b 0x00 := by
  ext1 <;> apply BitVec.eq_of_toNat_eq
  · simp [ckstep_a_toNat]
  · simp [ckstep_b_toNat]

/-- The step that takes the byte is the only one that sees it. -/
theorem checksum_ff (pre post : List Byte) : checksum (pre ++ 0xFF :: post) = checksum (pre ++ 0x00 :: post) := by
  simp only [checksum_eq_foldBytes, foldBytes_append, foldBytes_cons, ckstep_ff]

theorem checksum_swap_zero_ff (pre mid post : List Byte) :
    checksum (pre ++ 0x00 :: mid ++ 0xFF :: post) = checksum (pre ++ 0xFF :: mid ++ 0x00 :: post) := by
  rw [checksum_ff, List.append_assoc, List.append_assoc, List.cons_append, List.cons_append, checksum_ff]

theorem pack_low_high_iff (w : Word) : pack (lowByte w) (highByte w) = w ↔ lowByte w = highByte w := by
  conv_lhs => rhs; rw [← pack_high_low w]
  rw [pack_inj, and_iff_left_of_imp Eq.symm]

/-! ### Words answered ILLEGAL (60_exceptions.md R231) -/

/-- A word R97 refuses decodes to no instruction or to a reserved one, and both are answered ILLEGAL. -/
theorem answeredIllegal_of_legalWord_eq_false {w : Word} (h : legalWord w = false) : AnsweredIllegal w := by
  intro s hport
  refine ⟨s.answer .illegal, ?_, answer_sameBlock s _, answer_returned s _⟩
  rcases step_cases s with ⟨hidle, -⟩ | ⟨_, hreset, -⟩ | ⟨v, _, i, hcmd, hdecode, hstep⟩ | ⟨_, _, _, -, -, hstep⟩
  · simp [OnPort, hidle] at hport
  · simp [OnPort, hreset] at hport
  · obtain rfl : v = w := by simpa [OnPort, hcmd] using hport
    rw [← encodesCommand_eq_legalWord, encodesCommand, hdecode] at h
    cases i with
    | reserved low => exact hstep
    | _ => cases h
  · exact hstep

theorem answeredIllegal_of_noOperand {w : Word} (hop : (opField w).toNat ∈ [0x0, 0x1, 0x3, 0x4, 0x8, 0xB])
    (h : selField w ≠ 0 ∨ dataField w ≠ 0) : AnsweredIllegal w := by
  apply answeredIllegal_of_legalWord_eq_false
  rw [legalWord_eq_fields, illegalFields_noOperand hop]
  simpa [← BitVec.toNat_inj, ← imp_iff_not_or] using h

theorem answeredIllegal_of_byteOperand {w : Word} (hop : (opField w).toNat ∈ [0x2, 0x5, 0x9])
    (h : selField w ≠ 0) : AnsweredIllegal w := by
  apply answeredIllegal_of_legalWord_eq_false
  rw [legalWord_eq_fields, illegalFields_byteOperand hop]
  simpa [← BitVec.toNat_inj] using h

/-! ### The commands of CKE (R124 to R126) -/

theorem exec_ckClr (s : State) : exec .ckClr s = .next ((s.setCke Cke.reset).answer (.ok 0)) := rfl

theorem exec_ckUpd (x : Byte) (s : State) :
    exec (.ckUpd x) s = .next ((s.setCke (s.cke.fold x)).answer (.ok (s.cke.fold x).sum)) := rfl

theorem exec_ckRd (s : State) : exec .ckRd s = .next (s.answer (.ok s.cke.sum)) := rfl

/-! ### A run of CK_UPD (R127) -/

theorem Cke.foldl_fold_sum (c : Cke) (xs : List Byte) :
    (xs.foldl Cke.fold c).sum = pack (foldBytes (c.a, c.b) xs).2 (foldBytes (c.a, c.b) xs).1 := by
  induction xs generalizing c with
  | nil => rfl
  | cons x xs ih => exact ih (c.fold x)

/-- From cleared accumulators CKE holds the checksum of the bytes so far. -/
theorem Cke.reset_foldl_fold_sum (xs : List Byte) : (xs.foldl Cke.fold Cke.reset).sum = checksum xs :=
  Cke.foldl_fold_sum Cke.reset xs

/-- CK_UPD of each byte folds the list into CKE, and answers each time what CKE then holds. -/
theorem execAll_ckUpd (xs : List Byte) (s : State) :
    ∃ t, execAll (xs.map .ckUpd) s = .next t ∧ t.cke = xs.foldl Cke.fold s.cke
      ∧ t.port.responses = s.port.responses
          ++ (List.range xs.length).map (fun k => .ok ((xs.take (k + 1)).foldl Cke.fold s.cke).sum)
      ∧ t.rx = s.rx ∧ t.tx = s.tx := by
  induction xs generalizing s with
  | nil => exact ⟨s, rfl, rfl, by simp, rfl, rfl⟩
  | cons x xs ih =>
    obtain ⟨t, hrun, hcke, hresp, hrx, htx⟩ := ih ((s.setCke (s.cke.fold x)).answer (.ok (s.cke.fold x).sum))
    refine ⟨t, ?_, hcke, ?_, hrx, htx⟩
    · rw [List.map_cons, execAll_cons_next (exec_ckUpd x s), hrun]
    · rw [hresp]
      simp [List.range_succ_eq_map, Function.comp_def]

/-! ### The statements -/

/-- Settles O25: both forms are the same numbers modulo 255. -/
theorem checksumStepForms : Obligations.ChecksumStepForms := by
  intro a b x ha hb
  refine ⟨ckstep_a_toNat a b x, ?_, ckstep_eq_nineBitAdd ha hb x⟩
  rw [ckstep_a_toNat, ckstep_b_toNat]

/-- Settles O26, by induction on the list from its end. -/
theorem checksumClosedForm : Obligations.ChecksumClosedForm := by
  intro xs
  rw [lowByte_checksum, highByte_checksum]
  exact ⟨foldBytes_fst_toNat xs, foldBytes_snd_toNat xs⟩

/-- Settles O27: (b) by the accumulators' range, (c) and the swap by `checksum_ff`, (e) by `pack_low_high_iff`; the
examples are closed. -/
theorem checksumProperties : Obligations.ChecksumProperties := by
  refine ⟨rfl, fun xs => ?_, checksum_ff, rfl, rfl, rfl, rfl, rfl, rfl, checksum_swap_zero_ff,
    fun xs => pack_low_high_iff (checksum xs), rfl, rfl, rfl⟩
  rw [lowByte_checksum, highByte_checksum, ← accumulatorOk_iff, ← accumulatorOk_iff]
  exact foldBytes_accumulatorOk xs

/-- Settles O30: the two numbers are those of `ckstep`. -/
theorem ckUpdFoldsOneByte : Obligations.CkUpdFoldsOneByte := by
  refine ⟨fun x => decode_encode (.ckUpd x), fun w hop hsel => ?_, fun x s => ?_⟩
  · exact answeredIllegal_of_byteOperand (by simp [hop]) hsel
  · exact ⟨_, exec_ckUpd x s, ckstep_a_toNat s.cke.a s.cke.b x, ckstep_b_toNat s.cke.a s.cke.b x, rfl, rfl,
      setCke_answer_returned s _ _⟩

/-- Settles O32: CK_CLR, then `execAll_ckUpd` from cleared accumulators, then CK_RD. -/
theorem ckSumComputesTheChecksum : Obligations.CkSumComputesTheChecksum := by
  intro xs s
  obtain ⟨t, hrun, hcke, hresp, hrx, htx⟩ := execAll_ckUpd xs ((s.setCke Cke.reset).answer (.ok 0))
  refine ⟨t.answer (.ok t.cke.sum), ?_, ?_, hrx, htx⟩
  · rw [List.cons_append, execAll_cons_next (exec_ckClr s), execAll_append_next hrun]
    rfl
  · rw [State.answer_port, Port.answer_responses, hresp, hcke]
    simp [Cke.reset_foldl_fold_sum, Response.ok]

/-- Settles O29: CK_CLR is a command with no operand, and its answer is `exec_ckClr`. -/
theorem ckClrClearsCke : Obligations.CkClrClearsCke :=
  ⟨rfl, fun _ hop => answeredIllegal_of_noOperand (by simp [hop]),
    fun s => ⟨_, exec_ckClr s, rfl, rfl, rfl, rfl, setCke_answer_returned s _ _⟩⟩

/-- Settles O31: CK_RD is a command with no operand, and its answer is `exec_ckRd`. -/
theorem ckRdReadsCke : Obligations.CkRdReadsCke :=
  ⟨rfl, fun _ hop => answeredIllegal_of_noOperand (by simp [hop]),
    fun s => ⟨_, exec_ckRd s, answer_sameBlock s _, answer_returned s _⟩⟩

end Sys2Proof.Machine
end

section
/-! PROOFS. 41_deserializer.md: RX_RST, RX_PUSH and RX_RD (R143 to R150, R156, R157), what a list of bytes makes of RX, and
RX against the decode function (R158, R159). -/

namespace Sys2Proof.Machine

/-! ### One byte, forwards (R144) -/

theorem Rx.push_magic0 {r : Rx} (h : r.phase = 0) (x : Byte) : r.push x = some (r.magic 0x4D .magic1 x) := by
  rw [Rx.push, h]
  rfl

theorem Rx.push_magic1 {r : Rx} (h : r.phase = 1) (x : Byte) : r.push x = some (r.magic 0x45 .lenLo x) := by
  rw [Rx.push, h]
  rfl

theorem Rx.push_cmd {r : Rx} (h : r.phase = 6) (x : Byte) : r.push x = some (r.takeCmd x) := by
  rw [Rx.push, h]
  rfl

theorem Rx.push_payload {r : Rx} (h : r.phase = 7) (x : Byte) : r.push x = some (r.takePayload x) := by
  rw [Rx.push, h]
  rfl

theorem Rx.push_ckLo {r : Rx} (h : r.phase = 8) (x : Byte) :
    r.push x = some (Rx.goto { r with ckw := withLow r.ckw x } .ckHi) := by
  rw [Rx.push, h]
  rfl

theorem Rx.push_ckHi {r : Rx} (h : r.phase = 9) (x : Byte) : r.push x = some (r.takeCkHi x) := by
  rw [Rx.push, h]
  rfl

theorem Rx.push_terminal {r : Rx} (h : r.phase = 10 ∨ r.phase = 11) (x : Byte) :
    r.push x = some { r with ovr := true } := by
  rcases h with h | h <;>
    · rw [Rx.push, h]
      rfl

/-- A wrong magic byte stops RX at once (R145). -/
theorem Rx.push_bad_magic {r : Rx} {x : Byte} (h : (r.phase = 0 ∧ x ≠ 0x4D) ∨ (r.phase = 1 ∧ x ≠ 0x45)) :
    r.push x = some { r with magerr := true, phase := 11 } := by
  rcases h with ⟨hp, hx⟩ | ⟨hp, hx⟩
  · rw [Rx.push_magic0 hp, Rx.magic, if_neg (by simpa using hx)]
    rfl
  · rw [Rx.push_magic1 hp, Rx.magic, if_neg (by simpa using hx)]
    rfl

/-! ### One byte, register by register (R144) -/

/-- RX after the byte `x`, each register as a function of the phase the byte is consumed in. -/
def Rx.afterByte (r : Rx) (x : Byte) : Rx :=
  let q := r.phase.toNat
  let ab := if 4 ≤ q ∧ q ≤ 7 then ckstep r.a r.b x else (r.a, r.b)
  { phase :=
      if q = 0 then (if x = 0x4D then 1 else 11)
      else if q = 1 then (if x = 0x45 then 2 else 11)
      else if q = 6 then (if r.len = 0 then 8 else 7)
      else if q = 7 then (if r.pcnt + 1 = r.len then 8 else 7)
      else if q ≤ 9 then r.phase + 1
      else r.phase
    len := if q = 2 then withLow r.len x else if q = 3 then withHigh r.len x else r.len
    mtype := if q = 4 then x else r.mtype
    mclass := if q = 5 then x else r.mclass
    cmd := if q = 6 then x else r.cmd
    ckw := if q = 8 then withLow r.ckw x else if q = 9 then withHigh r.ckw x else r.ckw
    a := ab.1
    b := ab.2
    pcnt := if q = 7 then r.pcnt + 1 else r.pcnt
    magerr := r.magerr || decide ((q = 0 ∧ x ≠ 0x4D) ∨ (q = 1 ∧ x ≠ 0x45))
    typerr := r.typerr || decide (q = 4 ∧ x ≠ 0x00 ∧ x ≠ 0x0F)
    clserr := r.clserr || decide (q = 5 ∧ 0x08 < x.toNat)
    cmdunk := r.cmdunk || decide (q = 6 ∧ known r.mclass x = false)
    ckerr := r.ckerr || decide (q = 9 ∧ pack x (lowByte r.ckw) ≠ r.sum)
    ovr := r.ovr || decide (q = 10 ∨ q = 11) }

theorem typeOk_eq (x : Byte) : typeOk x = decide (x = 0x00 ∨ x = 0x0F) := by simp [typeOk, Bool.beq_eq_decide_eq]

theorem classOk_eq (x : Byte) : classOk x = !decide (0x08 < x.toNat) := by simp [classOk, ← decide_not]

theorem code_ckLo_or_payload (p : Prop) [Decidable p] :
    (if p then Phase.ckLo else Phase.payload).code = if p then 8 else 7 := apply_ite _ _ _ _

/-- R144 is written phase by phase; this is the same table read register by register. -/
theorem Rx.eq_afterByte {r r' : Rx} {x : Byte} (h : r.push x = some r') : r' = r.afterByte x := by
  rcases Rx.push_cases h with ⟨hp, rfl⟩ | ⟨hp, rfl⟩ | ⟨hp, rfl⟩ | ⟨hp, rfl⟩ | ⟨hp, rfl⟩ | ⟨hp, rfl⟩ | ⟨hp, rfl⟩
    | ⟨hp, rfl⟩ | ⟨hp, rfl⟩ | ⟨hp, rfl⟩ | ⟨hp | hp, rfl⟩ <;>
    simp [Rx.afterByte, hp, ↓code_ckLo_or_payload, Phase.code, Rx.goto, Rx.fold, Rx.magic_eq, Rx.takeType, Rx.takeClass,
      Rx.takeCmd, Rx.takePayload, Rx.takeCkHi, typeOk_eq, classOk_eq, bne, Bool.beq_eq_decide_eq]

theorem Rx.push_eq_afterByte {r : Rx} (h : r.phase.toNat ≤ 11) (x : Byte) : r.push x = some (r.afterByte x) := by
  obtain ⟨r', hpush⟩ := Option.isSome_iff_exists.mp ((r.push_isSome x).trans (decide_eq_true h))
  rw [hpush, Rx.eq_afterByte hpush]

theorem Rx.afterByte_a_toNat (r : Rx) (x : Byte) :
    (r.afterByte x).a.toNat =
      if 4 ≤ r.phase.toNat ∧ r.phase.toNat ≤ 7 then (r.a.toNat + x.toNat) % 255 else r.a.toNat := by
  rw [← ckstep_a_toNat r.a r.b x]
  exact apply_ite (fun ab : Byte × Byte => ab.1.toNat) _ _ _

theorem Rx.afterByte_b_toNat (r : Rx) (x : Byte) :
    (r.afterByte x).b.toNat =
      if 4 ≤ r.phase.toNat ∧ r.phase.toNat ≤ 7 then (r.b.toNat + (r.a.toNat + x.toNat) % 255) % 255
      else r.b.toNat := by
  rw [← ckstep_b_toNat]
  exact apply_ite (fun ab : Byte × Byte => ab.2.toNat) _ _ _

theorem known_eq_false_iff {c k : Byte} :
    known c k = false ↔
      (c ≠ 0x00 ∧ c ≠ 0x04) ∨ (c = 0x00 ∧ reportingCmds k = false) ∨ (c = 0x04 ∧ systemCmds k = false) := by
  rw [← Bool.not_eq_true, known_iff, ← Bool.not_eq_true, ← Bool.not_eq_true]
  by_cases h0 : c = 0x00
  · simp [h0]
  · by_cases h4 : c = 0x04
    · simp [h4]
    · simp only [ne_eq, h0, h4]
      simp

/-! ### The commands of RX -/

theorem exec_rxRst (s : State) : exec .rxRst s = .next ((s.setRx Rx.reset).answer (.ok 0)) := rfl

theorem exec_rxRdLen (s : State) : exec .rxRdLen s = .next (s.answer (.ok s.rx.len)) := rfl

theorem exec_rxPush {s : State} {r : Rx} {x : Byte} (h : s.rx.push x = some r) :
    exec (.rxPush x) s = .next ((s.setRx r).answer (.ok (pushData s.rx.phase r))) := by
  simp [exec, execRxPush, answerOk, h]

theorem pushData_phase (q : Nibble) (r : Rx) : (pushData q r).extractLsb' 12 4 = q :=
  BitVec.extractLsb'_append_eq_left

theorem zext16_eq_append (x : Byte) : zext16 x = 0#8 ++ x := by
  apply BitVec.eq_of_toNat_eq
  have hlt := x.isLt
  change (zext16 x).toNat = (pack 0#8 x).toNat
  rw [pack_toNat, zext16, BitVec.toNat_setWidth, BitVec.toNat_zero]
  omega

theorem readsAs_of_exec {i : Instr} {s : State} {v : Word} (h : exec i s = answerOk s v) : ReadsAs i s v :=
  ⟨_, h, answer_sameBlock s _, answer_returned s _⟩

theorem answeredIllegal_of_rxRead {w : Word} (hop : opField w = 0x6) (h : 8 ≤ (selField w).toNat ∨ dataField w ≠ 0) :
    AnsweredIllegal w := by
  apply answeredIllegal_of_legalWord_eq_false
  rw [legalWord_eq_fields, hop]
  change (!illegalFields 0x6 _ _) = false
  rw [illegalFields_rxRead]
  rcases h with hsel | hdata
  · simp [hsel]
  · have hne : (dataField w).toNat ≠ 0 := by simpa [← BitVec.toNat_inj] using hdata
    simp [hne]

/-! ### A list of bytes -/

/-- RX after it consumed a list of bytes, one RX_PUSH each. -/
def Rx.pushAll (r : Rx) (bs : List Byte) : Option Rx := bs.foldlM Rx.push r

@[simp] theorem Rx.pushAll_nil (r : Rx) : r.pushAll [] = some r := rfl

theorem Rx.pushAll_cons {r r' : Rx} {x : Byte} (h : r.push x = some r') (bs : List Byte) :
    r.pushAll (x :: bs) = r'.pushAll bs := by
  simp [Rx.pushAll, h]

theorem Rx.pushAll_append {r r' : Rx} {bs : List Byte} (h : r.pushAll bs = some r') (more : List Byte) :
    r.pushAll (bs ++ more) = r'.pushAll more := by
  rw [Rx.pushAll, List.foldlM_append]
  change (r.pushAll bs).bind _ = _
  rw [h]
  rfl

theorem execAll_rxPush {s : State} {r : Rx} {bs : List Byte} (h : s.rx.pushAll bs = some r) :
    ∃ t, execAll (bs.map .rxPush) s = .next t ∧ t.rx = r := by
  induction bs generalizing s with
  | nil => exact ⟨s, rfl, Option.some.inj h⟩
  | cons x bs ih =>
    cases hpush : s.rx.push x with
    | none => simp [Rx.pushAll, hpush] at h
    | some r' =>
      rw [Rx.pushAll_cons hpush] at h
      rw [List.map_cons, execAll_cons_next (exec_rxPush hpush)]
      exact ih h

theorem execAll_rxRst_rxPush {r : Rx} {bs : List Byte} (h : Rx.reset.pushAll bs = some r) (s : State) :
    ∃ t, execAll (.rxRst :: bs.map .rxPush) s = .next t ∧ t.rx = r := by
  rw [execAll_cons_next (exec_rxRst s)]
  exact execAll_rxPush h

/-- In DONE and ERROR every byte is dropped, and the first one sets OVR (R150). -/
theorem Rx.pushAll_terminal {r : Rx} (h : r.phase = 10 ∨ r.phase = 11) (bs : List Byte) :
    r.pushAll bs = some { r with ovr := r.ovr || !bs.isEmpty } := by
  induction bs generalizing r with
  | nil => simp
  | cons x bs ih =>
    rw [Rx.pushAll_cons (Rx.push_terminal h x), ih (by exact h)]
    simp

theorem Rx.pushAll_bad_magic {r : Rx} {x : Byte} (h : (r.phase = 0 ∧ x ≠ 0x4D) ∨ (r.phase = 1 ∧ x ≠ 0x45))
    (more : List Byte) :
    r.pushAll (x :: more) = some { r with magerr := true, phase := 11, ovr := r.ovr || !more.isEmpty } := by
  rw [Rx.pushAll_cons (Rx.push_bad_magic h), Rx.pushAll_terminal (.inr rfl)]

/-! ### A frame, byte by byte (R144, R146 to R149) -/

/-- The phase with `n` bytes of a payload of length `l` taken: CK_LO with all of them, PAYLOAD before that. -/
def bodyPhase (n : Nat) (l : Word) : Phase := if n = l.toNat then .ckLo else .payload

/-- RX, armed, after the right magic, the length `l`, the codes `t`, `c`, `k` and the payload bytes `p`. -/
def Rx.inFrame (l : Word) (t c k : Byte) (p : List Byte) : Rx where
  phase := (bodyPhase p.length l).code
  len := l
  mtype := t
  mclass := c
  cmd := k
  ckw := 0
  a := (foldBytes (0, 0) ([t, c, k] ++ p)).1
  b := (foldBytes (0, 0) ([t, c, k] ++ p)).2
  pcnt := BitVec.ofNat 16 p.length
  magerr := false
  typerr := !typeOk t
  clserr := !classOk c
  cmdunk := !known c k
  ckerr := false
  ovr := false

/-- RX after the whole frame, with the wire checksum `w`. -/
def Rx.atFrameEnd (l : Word) (t c k : Byte) (p : List Byte) (w : Word) : Rx :=
  { Rx.inFrame l t c k p with phase := 10, ckw := w, ckerr := w != checksum ([t, c, k] ++ p) }

theorem withHigh_withLow (w : Word) (h l : Byte) : withHigh (withLow w l) h = pack h l := by simp [withHigh]

theorem bodyPhase_bounds (n : Nat) (l : Word) :
    7 ≤ (bodyPhase n l).code.toNat ∧ (bodyPhase n l).code.toNat ≤ 8 := by
  unfold bodyPhase
  split <;> decide

theorem bodyPhase_zero (l : Word) : (if l == 0 then .ckLo else .payload) = bodyPhase 0 l := by
  have hzero : l = 0 ↔ 0 = l.toNat := by simp [← BitVec.toNat_inj, eq_comm]
  simp only [bodyPhase, beq_iff_eq, hzero]

theorem bodyPhase_succ {n : Nat} {l : Word} (h : n < l.toNat) :
    (if BitVec.ofNat 16 n + 1 == l then .ckLo else .payload) = bodyPhase (n + 1) l := by
  have hlast : BitVec.ofNat 16 n + 1 = l ↔ n + 1 = l.toNat := by bv_omega
  simp only [bodyPhase, beq_iff_eq, hlast]

/-- The seven header bytes leave RX at the start of the payload, or past it if the length is 0 (R146). -/
theorem Rx.pushAll_header (l0 l1 t c k : Byte) :
    Rx.reset.pushAll [0x4D, 0x45, l0, l1, t, c, k] = some (Rx.inFrame (pack l1 l0) t c k []) := by
  have hrun : Rx.reset.pushAll [0x4D, 0x45, l0, l1, t, c, k] =
      some (((Rx.takeType { Rx.reset with phase := 4, len := withHigh (withLow 0 l0) l1 } t).takeClass c).takeCmd k) :=
    rfl
  rw [hrun, withHigh_withLow]
  simp [Rx.takeType, Rx.takeClass, Rx.takeCmd, Rx.fold, Rx.goto, Rx.inFrame, Rx.reset, ← bodyPhase_zero]

theorem Rx.inFrame_push {l : Word} {p : List Byte} (h : p.length < l.toNat) (t c k x : Byte) :
    (Rx.inFrame l t c k p).push x = some (Rx.inFrame l t c k (p ++ [x])) := by
  have hphase : (Rx.inFrame l t c k p).phase = 7 := by simp [Rx.inFrame, bodyPhase, h.ne, Phase.code]
  rw [Rx.push_payload hphase]
  simp [Rx.takePayload, Rx.inFrame, Rx.goto, Rx.fold, ← bodyPhase_succ h, foldBytes_append, BitVec.ofNat_add]

theorem Rx.inFrame_pushAll {l : Word} {p xs : List Byte} (h : p.length + xs.length ≤ l.toNat) (t c k : Byte) :
    (Rx.inFrame l t c k p).pushAll xs = some (Rx.inFrame l t c k (p ++ xs)) := by
  induction xs generalizing p with
  | nil => simp
  | cons x xs ih =>
    rw [List.length_cons] at h
    have hmore : (p ++ [x]).length + xs.length ≤ l.toNat := by
      rw [List.length_append, List.length_singleton]
      omega
    rw [Rx.pushAll_cons (Rx.inFrame_push (by omega) t c k x), ih hmore, List.append_assoc, List.singleton_append]

theorem Rx.inFrame_pushAll_payload {l : Word} {p : List Byte} (h : p.length ≤ l.toNat) (t c k : Byte) :
    (Rx.inFrame l t c k []).pushAll p = some (Rx.inFrame l t c k p) :=
  Rx.inFrame_pushAll (p := []) (by simpa using h) t c k

theorem Rx.inFrame_push_ckLo {l : Word} {p : List Byte} (h : p.length = l.toNat) (t c k lo : Byte) :
    (Rx.inFrame l t c k p).push lo = some { Rx.inFrame l t c k p with phase := 9, ckw := withLow 0 lo } :=
  Rx.push_ckLo (by simp [Rx.inFrame, bodyPhase, h, Phase.code]) lo

theorem Rx.inFrame_pushAll_checksum {l : Word} {p : List Byte} (h : p.length = l.toNat) (t c k lo hi : Byte) :
    (Rx.inFrame l t c k p).pushAll [lo, hi] = some (Rx.atFrameEnd l t c k p (pack hi lo)) := by
  rw [Rx.pushAll_cons (Rx.inFrame_push_ckLo h t c k lo), Rx.pushAll_cons (Rx.push_ckHi rfl hi), Rx.pushAll_nil]
  simp only [Rx.takeCkHi, withLow_low, withHigh_withLow]
  rfl

/-! ### How many of a frame's bytes a list holds -/

/-- The bytes after the header of a frame of payload length `n`: part of the payload or all of it, with one checksum
byte, or with both and whatever follows them. -/
inductive BodyBytes (n : Nat) : List Byte → Prop
  | payload {p : List Byte} (hp : p.length ≤ n) : BodyBytes n p
  | ckLo (p : List Byte) (hp : p.length = n) (lo : Byte) : BodyBytes n (p ++ [lo])
  | whole (p : List Byte) (hp : p.length = n) (lo hi : Byte) (more : List Byte) : BodyBytes n (p ++ lo :: hi :: more)

theorem bodyBytes (n : Nat) (bs : List Byte) : BodyBytes n bs := by
  by_cases hlen : bs.length ≤ n
  · exact .payload hlen
  · have hp : (bs.take n).length = n := List.length_take_of_le (by omega)
    rw [← List.take_append_drop n bs]
    match hdrop : bs.drop n with
    | [] => exact absurd (List.drop_eq_nil_iff.mp hdrop) hlen
    | [lo] => exact .ckLo _ hp lo
    | lo :: hi :: more => exact .whole _ hp lo hi more

/-- What RX makes of the bytes after the header. -/
theorem Rx.inFrame_pushAll_whole {l : Word} {p : List Byte} (h : p.length = l.toNat) (t c k lo hi : Byte)
    (more : List Byte) :
    (Rx.inFrame l t c k []).pushAll (p ++ lo :: hi :: more) =
      some { Rx.atFrameEnd l t c k p (pack hi lo) with ovr := !more.isEmpty } := by
  have hchecksum := Rx.inFrame_pushAll_checksum h t c k lo hi
  rw [Rx.pushAll_append (Rx.inFrame_pushAll_payload h.le t c k)]
  exact (Rx.pushAll_append hchecksum more).trans (Rx.pushAll_terminal (.inl rfl) more)

theorem Rx.inFrame_pushAll_ckLo {l : Word} {p : List Byte} (h : p.length = l.toNat) (t c k lo : Byte) :
    (Rx.inFrame l t c k []).pushAll (p ++ [lo]) =
      some { Rx.inFrame l t c k p with phase := 9, ckw := withLow 0 lo } := by
  rw [Rx.pushAll_append (Rx.inFrame_pushAll_payload h.le t c k)]
  exact Rx.pushAll_cons (Rx.inFrame_push_ckLo h t c k lo) []

/-- Up to the frame's last byte nothing is dropped, and that byte is the one that completes it (R159). -/
theorem Rx.inFrame_pushAll_within {l : Word} {rest : List Byte} (h : rest.length ≤ l.toNat + 2) (t c k : Byte) :
    ∃ r, (Rx.inFrame l t c k []).pushAll rest = some r ∧ r.ovr = false
      ∧ (r.phase = 10 ↔ rest.length = l.toNat + 2) := by
  cases bodyBytes l.toNat rest with
  | payload hp =>
    obtain ⟨-, hto⟩ := bodyPhase_bounds rest.length l
    refine ⟨_, Rx.inFrame_pushAll_payload hp t c k, rfl, iff_of_false (fun hdone => ?_) (by omega)⟩
    change (bodyPhase rest.length l).code = 10 at hdone
    rw [hdone] at hto
    exact absurd hto (by decide)
  | ckLo p hp lo =>
    exact ⟨_, Rx.inFrame_pushAll_ckLo hp t c k lo, rfl, iff_of_false (by simp) (by simp [hp])⟩
  | whole p hp lo hi more =>
    obtain rfl : more = [] := by
      simp only [List.length_append, List.length_cons] at h
      exact List.eq_nil_of_length_eq_zero (by omega)
    exact ⟨_, Rx.inFrame_pushAll_whole hp t c k lo hi [], rfl, iff_of_true rfl (by simp [hp])⟩

/-- Bytes after a header with the right magic. -/
def withHeader (l0 l1 t c k : Byte) (rest : List Byte) : List Byte :=
  0x4D :: 0x45 :: l0 :: l1 :: t :: c :: k :: rest

@[simp] theorem withHeader_length (l0 l1 t c k : Byte) (rest : List Byte) :
    (withHeader l0 l1 t c k rest).length = 7 + rest.length := Nat.add_comm rest.length 7

theorem Rx.pushAll_withHeader {l0 l1 t c k : Byte} {rest : List Byte} {r : Rx}
    (h : (Rx.inFrame (pack l1 l0) t c k []).pushAll rest = some r) :
    Rx.reset.pushAll (withHeader l0 l1 t c k rest) = some r :=
  (Rx.pushAll_append (Rx.pushAll_header l0 l1 t c k) rest).trans h

/-! ### Fewer bytes than a header -/

/-- The length and code bytes move RX on one phase each, and raise no flag that stops it. -/
theorem Rx.pushAll_below_body {r : Rx} {bs : List Byte} (hfrom : 2 ≤ r.phase.toNat)
    (hto : r.phase.toNat + bs.length ≤ 6) :
    ∃ r', r.pushAll bs = some r' ∧ r'.phase.toNat ≤ 6 ∧ r'.magerr = r.magerr ∧ r'.ovr = r.ovr := by
  induction bs generalizing r with
  | nil => exact ⟨r, rfl, hto, rfl, rfl⟩
  | cons x bs ih =>
    rw [List.length_cons] at hto
    have hpush := Rx.push_eq_afterByte (r := r) (by omega) x
    obtain ⟨hphase, hmag, hovr⟩ : (r.afterByte x).phase = r.phase + 1 ∧ (r.afterByte x).magerr = r.magerr
        ∧ (r.afterByte x).ovr = r.ovr := by
      have hcase : r.phase = 2 ∨ r.phase = 3 ∨ r.phase = 4 ∨ r.phase = 5 := by bv_omega
      rcases hcase with hp | hp | hp | hp <;> simp [Rx.afterByte, hp]
    have hsucc := succ_phase_toNat (phase := r.phase) (by omega)
    rw [← hphase] at hsucc
    obtain ⟨r', hall, hphase', hmag', hovr'⟩ := ih (r := r.afterByte x) (by omega) (by omega)
    exact ⟨r', (Rx.pushAll_cons hpush bs).trans hall, hphase', hmag'.trans hmag, hovr'.trans hovr⟩

/-- The magic bytes among `bs` are the right ones, and a byte of the header is missing. -/
structure ShortHeader (bs : List Byte) : Prop where
  missing : bs.length < 7
  magic0 : 1 ≤ bs.length → byteAt bs 0 = 0x4D
  magic1 : 2 ≤ bs.length → byteAt bs 1 = 0x45

theorem Rx.pushAll_shortHeader {bs : List Byte} (h : ShortHeader bs) :
    ∃ r, Rx.reset.pushAll bs = some r ∧ r.phase.toNat ≤ 6 ∧ r.magerr = false ∧ r.ovr = false := by
  match bs, h with
  | [], _ => exact ⟨_, rfl, by decide, rfl, rfl⟩
  | [b0], h =>
    obtain rfl : b0 = 0x4D := h.magic0 (by simp)
    exact ⟨_, rfl, by decide, rfl, rfl⟩
  | b0 :: b1 :: bs, h =>
    obtain rfl : b0 = 0x4D := h.magic0 (by simp)
    obtain rfl : b1 = 0x45 := h.magic1 (by simp)
    have hlen := h.missing
    simp only [List.length_cons] at hlen
    exact Rx.pushAll_below_body (r := { Rx.reset with phase := 2 }) (Nat.le_refl 2) (by simp; omega)

/-- The lists of bytes by where RX stands after them: stopped by a magic byte, short of a whole header, or past it. -/
inductive WireBytes : List Byte → Prop
  | badMagic0 (x : Byte) (hx : x ≠ 0x4D) (more : List Byte) : WireBytes (x :: more)
  | badMagic1 (x : Byte) (hx : x ≠ 0x45) (more : List Byte) : WireBytes (0x4D :: x :: more)
  | short {bs : List Byte} (h : ShortHeader bs) : WireBytes bs
  | header (l0 l1 t c k : Byte) (rest : List Byte) : WireBytes (withHeader l0 l1 t c k rest)

theorem wireBytes (bs : List Byte) : WireBytes bs := by
  match bs with
  | [] => exact .short ⟨by simp, by simp, by simp⟩
  | x :: more =>
    by_cases h0 : x = 0x4D
    · subst h0
      match more with
      | [] => exact .short ⟨by simp, fun _ => rfl, by simp⟩
      | y :: more =>
        by_cases h1 : y = 0x45
        · subst h1
          match more with
          | l0 :: l1 :: t :: c :: k :: rest => exact .header l0 l1 t c k rest
          | [] | [_] | [_, _] | [_, _, _] | [_, _, _, _] => exact .short ⟨by simp, fun _ => rfl, fun _ => rfl⟩
        · exact .badMagic1 y h1 more
    · exact .badMagic0 x h0 more

/-! ### The decode function on each kind of list (R141) -/

theorem decodeFrame_badMagic0 {x : Byte} (hx : x ≠ 0x4D) (more : List Byte) :
    decodeFrame (x :: more) = .error .malformedFrame := by
  rw [decodeFrame, if_pos ⟨by simp, hx⟩]

theorem decodeFrame_badMagic1 {x : Byte} (hx : x ≠ 0x45) (more : List Byte) :
    decodeFrame (0x4D :: x :: more) = .error .malformedFrame := by
  rw [decodeFrame, if_neg (fun h => h.2 rfl), if_pos ⟨by simp, hx⟩]

theorem decodeFrame_shortHeader {bs : List Byte} (h : ShortHeader bs) :
    decodeFrame bs = .error .truncatedPayload := by
  rw [decodeFrame, if_neg (fun h0 => h0.2 (h.magic0 h0.1)), if_neg (fun h1 => h1.2 (h.magic1 h1.1)), if_pos h.missing]

/-- Past a header with the right magic, decoding goes on with step 3. -/
theorem decodeFrame_withHeader (l0 l1 t c k : Byte) (rest : List Byte) :
    decodeFrame (withHeader l0 l1 t c k rest) =
      if !typeOk t || !classOk c then .error .unresolvedCode
      else if rest.length < (pack l1 l0).toNat + 2 then .error .truncatedPayload
      else if frameWire (withHeader l0 l1 t c k rest) ≠ frameSum (withHeader l0 l1 t c k rest) then
        .error .checksumMismatch
      else
        .frame
          { length := pack l1 l0, mtype := t, mclass := c, cmd := k, commandKnown := known c k,
            payload := framePayload (withHeader l0 l1 t c k rest),
            checksum := frameSum (withHeader l0 l1 t c k rest) }
          (9 + (pack l1 l0).toNat) := by
  have hlen : (withHeader l0 l1 t c k rest).length < 9 + (frameLen (withHeader l0 l1 t c k rest)).toNat ↔
      rest.length < (pack l1 l0).toNat + 2 := by
    rw [withHeader_length]
    change 7 + rest.length < 9 + (pack l1 l0).toNat ↔ _
    omega
  rw [decodeFrame, if_neg (fun h => h.2 rfl), if_neg (fun h => h.2 rfl), if_neg (by simp)]
  simp only [hlen]
  rfl

section
variable {l0 l1 : Byte} {p : List Byte} (hp : p.length = (pack l1 l0).toNat) (t c k lo hi : Byte) (more : List Byte)
include hp

theorem framePayload_whole : framePayload (withHeader l0 l1 t c k (p ++ lo :: hi :: more)) = p := by
  change (p ++ lo :: hi :: more).take (pack l1 l0).toNat = p
  rw [← hp, List.take_left']
  rfl

theorem frameSum_whole :
    frameSum (withHeader l0 l1 t c k (p ++ lo :: hi :: more)) = checksum ([t, c, k] ++ p) := by
  rw [frameSum, framePayload_whole hp]
  rfl

theorem frameWire_whole : frameWire (withHeader l0 l1 t c k (p ++ lo :: hi :: more)) = pack hi lo := by
  have hlen : (frameLen (withHeader l0 l1 t c k (p ++ lo :: hi :: more))).toNat = p.length := hp.symm
  rw [frameWire, hlen, Nat.add_comm 8, Nat.add_comm 7]
  simp [withHeader, byteAt]

theorem decodeFrame_whole :
    decodeFrame (withHeader l0 l1 t c k (p ++ lo :: hi :: more)) =
      if !typeOk t || !classOk c then .error .unresolvedCode
      else if pack hi lo ≠ checksum ([t, c, k] ++ p) then .error .checksumMismatch
      else
        .frame
          { length := pack l1 l0, mtype := t, mclass := c, cmd := k, commandKnown := known c k, payload := p,
            checksum := checksum ([t, c, k] ++ p) }
          (9 + (pack l1 l0).toNat) := by
  have hlen : ¬ (p ++ lo :: hi :: more).length < (pack l1 l0).toNat + 2 := by simp [hp]
  rw [decodeFrame_withHeader, if_neg hlen, frameWire_whole hp, frameSum_whole hp, framePayload_whole hp]

end

/-! ### What RX's state says, by its phase (R158) -/

theorem Rx.verdict_magerr {r : Rx} (hmag : r.magerr = true) (bs : List Byte) :
    r.verdict bs = .error .malformedFrame := by
  rw [Rx.verdict, if_pos hmag]

theorem Rx.verdict_shortHeader {r : Rx} (hmag : r.magerr = false) (hphase : r.phase.toNat ≤ 6) (bs : List Byte) :
    r.verdict bs = .error .truncatedPayload := by
  rw [Rx.verdict, if_neg (by simp [hmag]), if_pos hphase]

theorem Rx.verdict_in_body {r : Rx} (hmag : r.magerr = false) (hfrom : 7 ≤ r.phase.toNat) (hto : r.phase.toNat ≤ 9)
    (bs : List Byte) :
    r.verdict bs = if r.typerr || r.clserr then .error .unresolvedCode else .error .truncatedPayload := by
  have hphase : r.phase ≠ 10 := by bv_omega
  rw [Rx.verdict, if_neg (by simp [hmag]), if_neg (by omega), if_pos hphase]

theorem Rx.verdict_done {r : Rx} (hmag : r.magerr = false) (hphase : r.phase = 10) (bs : List Byte) :
    r.verdict bs =
      if r.typerr || r.clserr then .error .unresolvedCode
      else if r.ckerr then .error .checksumMismatch
      else
        .frame
          { length := r.len, mtype := r.mtype, mclass := r.mclass, cmd := r.cmd, commandKnown := !r.cmdunk,
            payload := (bs.drop 7).take r.len.toNat, checksum := r.sum }
          (9 + r.len.toNat) := by
  rw [Rx.verdict, if_neg (by simp [hmag]), if_neg (by simp [hphase]), if_neg (not_not.mpr hphase)]

/-! ### RX realises decode (R158) -/

/-- What R158 asks of RX's state after the bytes `bs`. -/
def Rx.RealisesDecode (bs : List Byte) (r : Rx) : Prop :=
  r.verdict bs = decodeFrame bs
    ∧ (r.ovr = true ↔
        (r.phase = 10 ∧ 9 + r.len.toNat < bs.length)
          ∨ (2 ≤ bs.length ∧ byteAt bs 0 ≠ 0x4D) ∨ (3 ≤ bs.length ∧ byteAt bs 1 ≠ 0x45))

/-- With the right magic, as far as it is there, only a complete frame can be overrun. -/
theorem overrun_iff_of_right_magic {bs : List Byte} (h0 : 1 ≤ bs.length → byteAt bs 0 = 0x4D)
    (h1 : 2 ≤ bs.length → byteAt bs 1 = 0x45) (afterDone : Prop) :
    (afterDone ∨ (2 ≤ bs.length ∧ byteAt bs 0 ≠ 0x4D) ∨ (3 ≤ bs.length ∧ byteAt bs 1 ≠ 0x45)) ↔ afterDone := by
  refine ⟨?_, .inl⟩
  rintro (hdone | ⟨hlen, hne⟩ | ⟨hlen, hne⟩)
  · exact hdone
  · exact absurd (h0 (by omega)) hne
  · exact absurd (h1 (by omega)) hne

theorem Rx.realisesDecode_of_shortHeader {r : Rx} {bs : List Byte} (h : ShortHeader bs) (hmag : r.magerr = false)
    (hovr : r.ovr = false) (hphase : r.phase.toNat ≤ 6) : r.RealisesDecode bs := by
  have hne : r.phase ≠ 10 := by bv_omega
  constructor
  · rw [Rx.verdict_shortHeader hmag hphase, decodeFrame_shortHeader h]
  · rw [overrun_iff_of_right_magic h.magic0 h.magic1]
    exact iff_of_false (by simp [hovr]) fun hdone => hne hdone.1

/-- In the middle of a frame nothing has been dropped, and decoding finds the frame truncated or its codes bad. -/
theorem Rx.realisesDecode_in_body {r : Rx} {l0 l1 t c k : Byte} {rest : List Byte} (hmag : r.magerr = false)
    (hovr : r.ovr = false) (hfrom : 7 ≤ r.phase.toNat) (hto : r.phase.toNat ≤ 9) (htype : r.typerr = !typeOk t)
    (hclass : r.clserr = !classOk c) (hrest : rest.length < (pack l1 l0).toNat + 2) :
    r.RealisesDecode (withHeader l0 l1 t c k rest) := by
  have hne : r.phase ≠ 10 := by bv_omega
  constructor
  · rw [Rx.verdict_in_body hmag hfrom hto, decodeFrame_withHeader, if_pos hrest, htype, hclass]
  · rw [overrun_iff_of_right_magic (fun _ => rfl) (fun _ => rfl)]
    exact iff_of_false (by simp [hovr]) fun hdone => hne hdone.1

theorem Rx.realisesDecode_whole {l0 l1 : Byte} {p : List Byte} (hp : p.length = (pack l1 l0).toNat)
    (t c k lo hi : Byte) (more : List Byte) :
    Rx.RealisesDecode (withHeader l0 l1 t c k (p ++ lo :: hi :: more))
      { Rx.atFrameEnd (pack l1 l0) t c k p (pack hi lo) with ovr := !more.isEmpty } := by
  have hpayload : ((withHeader l0 l1 t c k (p ++ lo :: hi :: more)).drop 7).take (pack l1 l0).toNat = p :=
    framePayload_whole hp t c k lo hi more
  constructor
  · rw [Rx.verdict_done rfl rfl, decodeFrame_whole hp]
    simp only [Rx.atFrameEnd, Rx.inFrame, bne_iff_ne, Bool.not_not, hpayload]
    rfl
  · rw [overrun_iff_of_right_magic (fun _ => rfl) (fun _ => rfl)]
    have hlen : 9 + (pack l1 l0).toNat < (withHeader l0 l1 t c k (p ++ lo :: hi :: more)).length ↔ 0 < more.length := by
      simp only [withHeader_length, List.length_append, List.length_cons, ← hp]
      omega
    change (!more.isEmpty) = true ↔ (10 : Nibble) = 10 ∧ _
    rw [eq_self, true_and]
    refine Iff.trans ?_ hlen.symm
    simp [List.length_pos_iff]

theorem Rx.realisesDecode_of_magerr {bs : List Byte} {r : Rx}
    (hmag : r.magerr = true) (hphase : r.phase = 11) (hdecode : decodeFrame bs = .error .malformedFrame)
    (hovr : r.ovr = true ↔ (2 ≤ bs.length ∧ byteAt bs 0 ≠ 0x4D) ∨ (3 ≤ bs.length ∧ byteAt bs 1 ≠ 0x45)) :
    r.RealisesDecode bs := by
  refine ⟨by rw [Rx.verdict_magerr hmag, hdecode], ?_⟩
  have hne : r.phase ≠ 10 := by simp [hphase]
  rw [hovr, or_iff_right (b := _ ∨ _) fun hdone => hne hdone.1]

/-- R158, by where RX stands after the bytes. -/
theorem Rx.pushAll_realisesDecode (bs : List Byte) :
    ∃ r, Rx.reset.pushAll bs = some r ∧ r.RealisesDecode bs := by
  cases wireBytes bs with
  | badMagic0 x hx more =>
    refine ⟨_, Rx.pushAll_bad_magic (.inl ⟨rfl, hx⟩) more, ?_⟩
    refine Rx.realisesDecode_of_magerr rfl rfl (decodeFrame_badMagic0 hx more) ?_
    cases more with
    | nil => simp [Rx.reset]
    | cons y more => exact iff_of_true (by simp) (.inl ⟨by simp, hx⟩)
  | badMagic1 x hx more =>
    refine ⟨_, Rx.pushAll_bad_magic (r := { Rx.reset with phase := 1 }) (.inr ⟨rfl, hx⟩) more, ?_⟩
    refine Rx.realisesDecode_of_magerr rfl rfl (decodeFrame_badMagic1 hx more) ?_
    cases more with
    | nil => simp [Rx.reset, byteAt]
    | cons y more => exact iff_of_true (by simp) (.inr ⟨by simp, hx⟩)
  | short h =>
    obtain ⟨r, hall, hphase, hmag, hovr⟩ := Rx.pushAll_shortHeader h
    exact ⟨r, hall, Rx.realisesDecode_of_shortHeader h hmag hovr hphase⟩
  | header l0 l1 t c k rest =>
    cases bodyBytes (pack l1 l0).toNat rest with
    | payload hp =>
      obtain ⟨hfrom, hto⟩ := bodyPhase_bounds rest.length (pack l1 l0)
      exact ⟨_, Rx.pushAll_withHeader (Rx.inFrame_pushAll_payload hp t c k),
        Rx.realisesDecode_in_body rfl rfl hfrom (Nat.le_succ_of_le hto) rfl rfl (by omega)⟩
    | ckLo p hp lo =>
      exact ⟨_, Rx.pushAll_withHeader (Rx.inFrame_pushAll_ckLo hp t c k lo),
        Rx.realisesDecode_in_body rfl rfl (by simp) (by simp) rfl rfl (by simp [hp])⟩
    | whole p hp lo hi more =>
      exact ⟨_, Rx.pushAll_withHeader (Rx.inFrame_pushAll_whole hp t c k lo hi more),
        Rx.realisesDecode_whole hp t c k lo hi more⟩

/-! ### The statements -/

/-- Settles O34: `Rx.afterByte` holds each register as the statement writes it. -/
theorem rxPushUpdatesEachRegister : Obligations.RxPushUpdatesEachRegister := by
  refine ⟨fun x => decode_encode (.rxPush x), fun w hop hsel => ?_, fun x s hphase => ?_⟩
  · exact answeredIllegal_of_byteOperand (by simp [hop]) hsel
  · exact ⟨_, exec_rxPush (Rx.push_eq_afterByte hphase x), rfl, rfl, rfl, rfl, rfl, rfl, rfl, rfl,
      s.rx.afterByte_a_toNat x, s.rx.afterByte_b_toNat x, rfl, rfl, rfl, rfl, rfl, rfl, rfl,
      setRx_answer_returned s _ _⟩

/-- Settles O35: `Rx.pushAll_bad_magic`, run by RX_PUSH. -/
theorem magicMismatchStopsRx : Obligations.MagicMismatchStopsRx :=
  fun _ more _ hbad => execAll_rxPush (Rx.pushAll_bad_magic hbad more)

/-- Settles O37: the bytes are a header, a whole payload and its two checksum bytes. -/
theorem rxTakesAWholeFrame : Obligations.RxTakesAWholeFrame := by
  intro t c k lo hi p s hp
  have hlen : (pack (BitVec.ofNat 8 (p.length / 256)) (BitVec.ofNat 8 p.length)).toNat = p.length := by
    simp only [pack_toNat, BitVec.toNat_ofNat]
    omega
  obtain ⟨u, hrun, hrx⟩ :=
    execAll_rxRst_rxPush (Rx.pushAll_withHeader (Rx.inFrame_pushAll_whole hlen.symm t c k lo hi [])) s
  refine ⟨u, hrun, ?_⟩
  rw [hrx]
  refine ⟨rfl, hlen, ?_, rfl, rfl, rfl, rfl, rfl, rfl, rfl, ?_, ?_, rfl, ?_⟩
  · refine BitVec.eq_of_toNat_eq (Eq.trans ?_ hlen.symm)
    exact Nat.mod_eq_of_lt (by omega)
  · change (!typeOk t) = _
    simp [typeOk_eq]
  · change (!classOk c) = _
    simp [classOk_eq]
  · change (pack hi lo != _) = _
    simp [bne, Bool.beq_eq_decide_eq, pack]

/-- Settles O38: `Rx.pushAll_realisesDecode`, from RX_RST and from the reset state. -/
theorem rxRealisesDecode : Obligations.RxRealisesDecode := by
  constructor
  · intro bs s
    obtain ⟨r, hall, hverdict, hovr⟩ := Rx.pushAll_realisesDecode bs
    obtain ⟨t, hrun, rfl⟩ := execAll_rxRst_rxPush hall s
    exact ⟨t, hrun, hverdict, hovr⟩
  · intro bs s hreset
    obtain ⟨r, hall, hverdict, -⟩ := Rx.pushAll_realisesDecode bs
    obtain ⟨t, hrun, rfl⟩ := execAll_rxPush (s := s) (by rwa [hreset])
    exact ⟨t, hrun, hverdict⟩

/-- Settles O39: the header by `Rx.pushAll_header`, the second read by `Rx.inFrame_pushAll_within`. -/
theorem twoPhaseRead : Obligations.TwoPhaseRead := by
  intro l0 l1 t c k s
  obtain ⟨u, hrun, hrx⟩ := execAll_rxRst_rxPush (Rx.pushAll_header l0 l1 t c k) s
  refine ⟨u, hrun, ?_, ?_, fun rest hrest => ?_⟩
  · rw [hrx]
    change (bodyPhase 0 (pack l1 l0)).code = _
    rw [← bodyPhase_zero, code_ckLo_or_payload]
    simp [pack]
  · have hlen : u.rx.len = l1 ++ l0 := by
      rw [hrx]
      rfl
    exact hlen ▸ readsAs_of_exec rfl
  · rw [execAll_cons_next (exec_rxRdLen u)]
    obtain ⟨r, hall, hovr, hdone⟩ := Rx.inFrame_pushAll_within (l := pack l1 l0) hrest t c k
    obtain ⟨v, hread, rfl⟩ := execAll_rxPush (s := u.answer (.ok u.rx.len)) (by rw [State.answer_rx, hrx, hall])
    exact ⟨v, hread, hovr, hdone⟩

/-- Settles O45: the CMD byte by `Rx.push_cmd`, the other phases by `Rx.afterByte`; ERR and acceptance do not read
CMDUNK. -/
theorem cmdunkFollowsTheTaxonomy : Obligations.CmdunkFollowsTheTaxonomy := by
  refine ⟨fun x s hphase hclear => ?_, fun x s t hphase hexec => ?_, fun r f => ⟨rfl, rfl⟩⟩
  · refine ⟨_, exec_rxPush (Rx.push_cmd hphase x), rfl, ?_⟩
    change (s.rx.cmdunk || !known s.rx.mclass x) = true ↔ _
    rw [hclear, Bool.false_or, Bool.not_eq_true', known_eq_false_iff]
  · rcases exec_rx hexec with hkept | hchange
    · rw [hkept]
    · have hne : s.rx.phase.toNat ≠ 6 := by bv_omega
      simp [Rx.eq_afterByte hchange.push_eq, Rx.afterByte, hne]

/-- Settles O33: RX_RST is a command with no operand, and its answer is `exec_rxRst`. -/
theorem rxRstArmsRx : Obligations.RxRstArmsRx :=
  ⟨rfl, fun _ hop => answeredIllegal_of_noOperand (by simp [hop]),
    fun s => ⟨_, exec_rxRst s, rfl, rfl, rfl, rfl, rfl, rfl, rfl, rfl, rfl, rfl, rfl, rfl, rfl, rfl, rfl, rfl, rfl,
      setRx_answer_returned s _ _⟩⟩

/-- Settles O36: by `Rx.push_terminal`, and the response's `q` by `pushData_phase`. -/
theorem pushAfterTheFrameIsDropped : Obligations.PushAfterTheFrameIsDropped :=
  fun x s hphase => ⟨_, exec_rxPush (Rx.push_terminal hphase x), rfl, rfl, rfl, _, setRx_answer_returned s _ _,
    pushData_phase _ _⟩

/-- Settles O40: each word is closed, a malformed one is refused by R97's clauses for RX_RD, and each read answers its
register. -/
theorem rxRdReadsEachRegister : Obligations.RxRdReadsEachRegister := by
  refine ⟨⟨rfl, rfl, rfl, rfl, rfl, rfl, rfl, rfl⟩, fun w => answeredIllegal_of_rxRead, fun s => ?_⟩
  simp only [← zext16_eq_append]
  exact ⟨readsAs_of_exec rfl, readsAs_of_exec rfl, readsAs_of_exec rfl, readsAs_of_exec rfl, readsAs_of_exec rfl,
    readsAs_of_exec rfl, readsAs_of_exec rfl, readsAs_of_exec rfl⟩

end Sys2Proof.Machine
end

section
/-! PROOFS. 42_serializer.md: TX_RST, TX_SET, TX_GO, TX_STEP and TX_RD (R182 to R186), what a list of TX_STEPs makes of TX
and emits, and TX against the encode function (R187). -/

namespace Sys2Proof.Machine

/-! ### Words of TX answered ILLEGAL (R97) -/

theorem answeredIllegal_of_illegalFields {w : Word}
    (h : illegalFields (opField w).toNat (selField w).toNat (dataField w).toNat = true) : AnsweredIllegal w := by
  apply answeredIllegal_of_legalWord_eq_false
  rw [legalWord_eq_fields, h]
  rfl

theorem answeredIllegal_of_txSet {w : Word} (hop : opField w = 0x7) (h : (selField w).toNat ∉ [1, 2, 3, 4, 9]) :
    AnsweredIllegal w := by
  apply answeredIllegal_of_illegalFields
  rw [hop]
  exact (illegalFields_txSet _ _).trans (decide_eq_true h)

theorem answeredIllegal_of_txRead {w : Word} (hop : opField w = 0xA) (h : 7 ≤ (selField w).toNat ∨ dataField w ≠ 0) :
    AnsweredIllegal w := by
  apply answeredIllegal_of_illegalFields
  rw [hop]
  refine (illegalFields_txRead _ _).trans ?_
  simpa [← BitVec.toNat_inj] using h

/-! ### The commands of TX, forwards -/

theorem answeredRefused_of_exec {i : Instr} {s : State} (h : exec i s = .next (s.answer .refused)) :
    AnsweredRefused i s :=
  ⟨_, h, answer_sameBlock s _, answer_returned s _⟩

theorem exec_txRst (s : State) : exec .txRst s = .next ((s.setTx Tx.reset).answer (.ok 0)) := rfl

theorem Tx.busy_eq_false_iff {t : Tx} : t.busy = false ↔ 9 < t.phase.toNat := by simp [Tx.busy]

theorem Tx.busy_eq_false_of_idle_or_done {t : Tx} (h : t.phase = 12 ∨ t.phase = 10) : t.busy = false := by
  rw [Tx.busy_eq_false_iff]
  rcases h with h | h <;> simp [h]

/-- TX with the register byte that a TX_SET names written (R183); the other commands name none. -/
def Tx.writeHeader (t : Tx) : Instr → Tx
  | .txSetLenLo v => { t with len := withLow t.len v }
  | .txSetType v => { t with mtype := v }
  | .txSetClass v => { t with mclass := v }
  | .txSetCmd v => { t with cmd := v }
  | .txSetLenHi v => { t with len := withHigh t.len v }
  | _ => t

theorem exec_txSet_eq_txWrite {i : Instr} (hset : i.isTxSet = true) (s : State) :
    exec i s = txWrite (fun t => t.writeHeader i) s := by
  cases i with
  | txSetLenLo | txSetType | txSetClass | txSetCmd | txSetLenHi => rfl
  | _ => cases hset

theorem txSet_refused {i : Instr} {s : State} (hset : i.isTxSet = true) (hbusy : s.tx.busy = true) :
    AnsweredRefused i s := by
  apply answeredRefused_of_exec
  rw [exec_txSet_eq_txWrite hset, txWrite, if_pos hbusy]
  rfl

theorem exec_txSet_of_idle {i : Instr} {s : State} (hset : i.isTxSet = true) (hidle : s.tx.busy = false) :
    exec i s = .next ((s.setTx (s.tx.writeHeader i)).answer (.ok 0)) := by
  rw [exec_txSet_eq_txWrite hset, txWrite, if_neg (by simp [hidle])]
  rfl

/-- A TX_SET that is not refused changes TX alone, and answers OK. -/
theorem txSet_writes {i : Instr} {s : State} (hset : i.isTxSet = true) (hphase : 9 < s.tx.phase.toNat) :
    ∃ t, exec i s = .next t ∧ t.tx = s.tx.writeHeader i ∧ t.cke = s.cke ∧ t.rx = s.rx
      ∧ Returned s t { st := .ok, data := 0x0000 } :=
  ⟨_, exec_txSet_of_idle hset (Tx.busy_eq_false_iff.mpr hphase), rfl, rfl, rfl, setTx_answer_returned s _ _⟩

theorem txGo_refused {s : State} (h : s.tx.busy = true ∨ s.tx.codeOk = false) : AnsweredRefused .txGo s := by
  rcases execTxGo_cases s with ⟨-, hout⟩ | ⟨hidle, hcode, -⟩
  · exact answeredRefused_of_exec hout
  · simp [hidle, hcode] at h

theorem exec_txGo_of_idle {s : State} (hidle : s.tx.busy = false) (hcode : s.tx.codeOk = true) :
    exec .txGo s = .next ((s.setTx s.tx.start).answer (.ok 0)) := by
  rcases execTxGo_cases s with ⟨hrefused, -⟩ | ⟨-, -, hout⟩
  · simp [hidle, hcode] at hrefused
  · exact hout

theorem Tx.emit_nothing {t : Tx} (h : t.phase = 10 ∨ t.phase = 12) (x : Byte) : t.emit x = .nothing := by
  rcases h with h | h <;>
    · rw [Tx.emit, h]
      rfl

theorem txStep_refused {s : State} {x : Byte} (h : s.tx.emit x = .nothing) : AnsweredRefused (.txStep x) s := by
  apply answeredRefused_of_exec
  simp [exec, execTxStep, answerRefused, h]

theorem exec_txStep {s : State} {x b : Byte} {t : Tx} (h : s.tx.emit x = .byte b t) :
    exec (.txStep x) s = .next ((s.setTx t).answer (.ok (stepData s.tx.phase b))) := by
  simp [exec, execTxStep, answerOk, h]

/-! ### One byte, register by register (R185) -/

/-- The wire byte TX emits, as a function of its phase. -/
def Tx.wireByte (t : Tx) (x : Byte) : Byte :=
  let q := t.phase.toNat
  if q = 0 then 0x4D else if q = 1 then 0x45 else if q = 2 then lowByte t.len else if q = 3 then highByte t.len
  else if q = 4 then t.mtype else if q = 5 then t.mclass else if q = 6 then t.cmd else if q = 7 then x
  else if q = 8 then t.a else t.b

/-- TX after it emitted a byte, each register as a function of the phase the byte is emitted in. -/
def Tx.afterByte (t : Tx) (x : Byte) : Tx :=
  let q := t.phase.toNat
  let ab := if 4 ≤ q ∧ q ≤ 7 then ckstep t.a t.b (t.wireByte x) else (t.a, t.b)
  { t with
    phase :=
      if q = 6 then (if t.len = 0 then 8 else 7)
      else if q = 7 then (if t.pcnt + 1 = t.len then 8 else 7)
      else t.phase + 1
    a := ab.1
    b := ab.2
    pcnt := if q = 7 then t.pcnt + 1 else t.pcnt }

/-- R185 is written phase by phase; this is the same table read register by register. -/
theorem Tx.emit_eq_afterByte {t : Tx} (h : t.phase.toNat ≤ 9) (x : Byte) :
    t.emit x = .byte (t.wireByte x) (t.afterByte x) := by
  rcases t.emit_cases x with ⟨hp, he⟩ | ⟨hp, he⟩ | ⟨hp, he⟩ | ⟨hp, he⟩ | ⟨hp, he⟩ | ⟨hp, he⟩ | ⟨hp, he⟩ | ⟨hp, he⟩
    | ⟨hp, he⟩ | ⟨hp, he⟩ | ⟨hp | hp, -⟩ | ⟨hp | hp, -⟩
  iterate 10
    · simp [he, Tx.wireByte, Tx.afterByte, hp, ↓code_ckLo_or_payload, Phase.code, Tx.goto, Tx.fold, Tx.emitPayload]
  · simp [hp] at h
  · simp [hp] at h
  · simp [hp] at h
  · omega

theorem Tx.afterByte_a_toNat (t : Tx) (x : Byte) :
    (t.afterByte x).a.toNat =
      if 4 ≤ t.phase.toNat ∧ t.phase.toNat ≤ 7 then (t.a.toNat + (t.wireByte x).toNat) % 255 else t.a.toNat := by
  rw [← ckstep_a_toNat t.a t.b]
  exact apply_ite (fun ab : Byte × Byte => ab.1.toNat) _ _ _

theorem Tx.afterByte_b_toNat (t : Tx) (x : Byte) :
    (t.afterByte x).b.toNat =
      if 4 ≤ t.phase.toNat ∧ t.phase.toNat ≤ 7 then
        (t.b.toNat + (t.a.toNat + (t.wireByte x).toNat) % 255) % 255
      else t.b.toNat := by
  rw [← ckstep_b_toNat]
  exact apply_ite (fun ab : Byte × Byte => ab.2.toNat) _ _ _

/-! ### A list of steps -/

/-- TX_STEPs with the data `xs` take TX from `t` to `t'` and emit the wire bytes `bs`. -/
inductive Tx.Emits : Tx → List Byte → List Byte → Tx → Prop
  | nil (t : Tx) : Emits t [] [] t
  | cons {t u t' : Tx} {x b : Byte} {xs bs : List Byte} (hemit : t.emit x = .byte b u) (hrest : Emits u xs bs t') :
      Emits t (x :: xs) (b :: bs) t'

theorem Tx.Emits.append {t u t' : Tx} {xs ys bs cs : List Byte} (h : t.Emits xs bs u) (h' : u.Emits ys cs t') :
    t.Emits (xs ++ ys) (bs ++ cs) t' := by
  induction h with
  | nil => exact h'
  | cons hemit _ ih => exact .cons hemit (ih h')

/-! ### Runs of commands that are all answered OK -/

/-- The commands run from `s` to `t` and return the responses `rs`, every one of them OK. -/
structure RunsOk (is : List Instr) (rs : List Response) (s t : State) : Prop where
  run : execAll is s = .next t
  responses : t.port.responses = s.port.responses ++ rs
  ok : ∀ r ∈ rs, r.st = .ok

theorem RunsOk.nil (s : State) : RunsOk [] [] s s := ⟨rfl, by simp, by simp⟩

theorem RunsOk.cons {i : Instr} {is : List Instr} {rs : List Response} {s u t : State} {v : Word}
    (hexec : exec i s = .next u) (hret : Returned s u (.ok v)) (h : RunsOk is rs u t) :
    RunsOk (i :: is) (.ok v :: rs) s t where
  run := (execAll_cons_next hexec).trans h.run
  responses := by rw [h.responses, hret.left, List.append_assoc, List.singleton_append]
  ok := List.forall_mem_cons.mpr ⟨rfl, h.ok⟩

theorem RunsOk.append {is js : List Instr} {rs qs : List Response} {s u t : State} (h : RunsOk is rs s u)
    (h' : RunsOk js qs u t) : RunsOk (is ++ js) (rs ++ qs) s t where
  run := (execAll_append_next h.run).trans h'.run
  responses := by rw [h'.responses, h.responses, List.append_assoc]
  ok := List.forall_mem_append.mpr ⟨h.ok, h'.ok⟩

theorem lowByte_stepData (q : Nibble) (b : Byte) : lowByte (stepData q b) = b := BitVec.extractLsb'_append_eq_right

theorem Tx.Emits.runsOk {t' : Tx} {xs bs : List Byte} {s : State} (h : s.tx.Emits xs bs t') :
    ∃ u rs, RunsOk (xs.map .txStep) rs s u ∧ emittedBytes rs = bs ∧ u.tx = t' := by
  generalize ht : s.tx = t at h
  induction h generalizing s with
  | nil => exact ⟨s, [], .nil s, rfl, ht⟩
  | @cons t u _ x b _ _ hemit _ ih =>
    subst ht
    obtain ⟨v, rs, hrun, hbytes, htx⟩ := ih (s := (s.setTx u).answer (.ok (stepData s.tx.phase b))) rfl
    refine ⟨v, _, hrun.cons (exec_txStep hemit) (setTx_answer_returned s _ _), ?_, htx⟩
    rw [← hbytes, emittedBytes, List.map_cons]
    exact congrArg (· :: _) (lowByte_stepData s.tx.phase b)

/-! ### The header, in any order (R183, R187) -/

@[simp] theorem Tx.writeHeader_phase (t : Tx) (i : Instr) : (t.writeHeader i).phase = t.phase := by
  cases i <;> rfl

/-- TX_SETs that find TX idle write their bytes one after another, and leave it idle. -/
theorem runsOk_txSets {hdr : List Instr} {s : State} (hset : ∀ i ∈ hdr, i.isTxSet = true) (hidle : s.tx.busy = false) :
    ∃ u, RunsOk hdr (List.replicate hdr.length (.ok 0)) s u ∧ u.tx = hdr.foldl Tx.writeHeader s.tx
      ∧ u.tx.busy = false := by
  induction hdr generalizing s with
  | nil => exact ⟨s, .nil s, rfl, hidle⟩
  | cons i is ih =>
    obtain ⟨hi, his⟩ := List.forall_mem_cons.mp hset
    have hidle' : (s.tx.writeHeader i).busy = false := by rwa [Tx.busy, Tx.writeHeader_phase]
    obtain ⟨u, hrun, htx, hend⟩ := ih (s := (s.setTx (s.tx.writeHeader i)).answer (.ok 0)) his hidle'
    exact ⟨u, hrun.cons (exec_txSet_of_idle hi hidle) (setTx_answer_returned s _ _), htx, hend⟩

theorem isTxSet_of_mem_txHdrInstrs {m c k : Byte} {l : Word} {i : Instr} (hi : i ∈ txHdrInstrs m c k l) :
    i.isTxSet = true := by
  simp only [txHdrInstrs, List.mem_cons, List.not_mem_nil, or_false] at hi
  rcases hi with rfl | rfl | rfl | rfl | rfl <;> rfl

theorem withHigh_withLow_comm (w : Word) (h l : Byte) : withHigh (withLow w l) h = withLow (withHigh w h) l := by
  simp [withHigh, withLow]

/-- The order of the two header writes does not matter to TX. -/
def Tx.WritesCommute (t : Tx) (i j : Instr) : Prop := (t.writeHeader i).writeHeader j = (t.writeHeader j).writeHeader i

/-- No two of the five header writes touch the same byte. -/
theorem Tx.writesCommute_of_mem {m c k : Byte} {l : Word} {i j : Instr} (hi : i ∈ txHdrInstrs m c k l)
    (hj : j ∈ txHdrInstrs m c k l) (t : Tx) : t.WritesCommute i j := by
  have hsymm : Std.Symm t.WritesCommute := ⟨fun _ _ h => h.symm⟩
  have hpairs : (txHdrInstrs m c k l).Pairwise t.WritesCommute := by
    simp [txHdrInstrs, Tx.WritesCommute, Tx.writeHeader, withHigh_withLow_comm]
  exact List.Pairwise.forall_of_forall (R := t.WritesCommute) (fun _ _ => rfl) hpairs hi hj

/-- TX with the header of a frame in its registers. -/
def Tx.withHeaderOf (t : Tx) (f : TxFrame) : Tx :=
  { t with len := f.len, mtype := f.mtype, mclass := f.mclass, cmd := f.cmd }

theorem Tx.foldl_writeHeader_of_perm {f : TxFrame} {hdr : List Instr}
    (hperm : hdr.Perm (txHdrInstrs f.mtype f.mclass f.cmd f.len)) (t : Tx) :
    hdr.foldl Tx.writeHeader t = t.withHeaderOf f := by
  rw [hperm.foldl_eq' (fun i hi j hj => Tx.writesCommute_of_mem (hperm.mem_iff.mp hi) (hperm.mem_iff.mp hj))]
  simp [txHdrInstrs, Tx.writeHeader, withHigh_withLow, Tx.withHeaderOf]

theorem Tx.withHeaderOf_codeOk {f : TxFrame} (h : f.wellFormed = true) (t : Tx) : (t.withHeaderOf f).codeOk = true := by
  simp only [TxFrame.wellFormed, Bool.and_eq_true] at h
  obtain ⟨⟨htype, hclass⟩, -⟩ := h
  simp [Tx.codeOk, Tx.withHeaderOf, htype, hclass]

/-- The header writes and TX_GO, six commands, start the frame. -/
theorem runsOk_setup {f : TxFrame} {hdr : List Instr} {s : State} (hf : f.wellFormed = true)
    (hperm : hdr.Perm (txHdrInstrs f.mtype f.mclass f.cmd f.len)) (hidle : s.tx.busy = false) :
    ∃ u, RunsOk (hdr ++ [.txGo]) (List.replicate 6 (.ok 0)) s u ∧ u.tx = (s.tx.withHeaderOf f).start := by
  obtain ⟨u, hrun, htx, hidle'⟩ := runsOk_txSets (fun i hi => isTxSet_of_mem_txHdrInstrs (hperm.mem_iff.mp hi)) hidle
  rw [Tx.foldl_writeHeader_of_perm hperm] at htx
  have hgo := exec_txGo_of_idle hidle' (htx ▸ Tx.withHeaderOf_codeOk hf s.tx)
  refine ⟨(u.setTx u.tx.start).answer (.ok 0), ?_, congrArg Tx.start htx⟩
  rw [hperm.length_eq] at hrun
  exact hrun.append ((RunsOk.nil _).cons hgo (setTx_answer_returned u _ _))

/-! ### A frame, byte by byte (R185, R187) -/

theorem Tx.emit_payload {t : Tx} (h : t.phase = 7) (x : Byte) : t.emit x = .byte x (t.emitPayload x) := by
  rw [Tx.emit, h]
  rfl

theorem Tx.emit_ckLo {t : Tx} (h : t.phase = 8) (x : Byte) : t.emit x = .byte t.a { t with phase := 9 } := by
  rw [Tx.emit, h]
  rfl

theorem Tx.emit_ckHi {t : Tx} (h : t.phase = 9) (x : Byte) : t.emit x = .byte t.b { t with phase := 10 } := by
  rw [Tx.emit, h]
  rfl

/-- The accumulators of TX after the three codes of its header and the payload bytes `p`. -/
def Tx.bodyFold (t : Tx) (p : List Byte) : Byte × Byte := foldBytes (0, 0) (checksumBody t.mtype t.mclass t.cmd p)

/-- TX with the header of `t`, in the frame, after the header bytes and the payload bytes `p`. -/
def Tx.inFrame (t : Tx) (p : List Byte) : Tx :=
  { t with
    phase := (bodyPhase p.length t.len).code
    a := (t.bodyFold p).1
    b := (t.bodyFold p).2
    pcnt := BitVec.ofNat 16 p.length }

/-- TX with the header of `t`, in DONE, after a frame with the payload `p`. -/
def Tx.atFrameEnd (t : Tx) (p : List Byte) : Tx := { t.inFrame p with phase := 10 }

/-- The seven header bytes leave TX at the start of the payload, or past it if the length is 0. The steps' data is
not used. -/
theorem Tx.start_emits_header (t : Tx) {xs : List Byte} (h : xs.length = 7) :
    t.start.Emits xs [0x4D, 0x45, lowByte t.len, highByte t.len, t.mtype, t.mclass, t.cmd] (t.inFrame []) := by
  match xs, h with
  | [_, _, _, _, _, _, _], _ =>
    refine .cons rfl (.cons rfl (.cons rfl (.cons rfl (.cons rfl (.cons rfl (.cons ?_ (.nil _)))))))
    rw [Tx.inFrame, List.length_nil, ← bodyPhase_zero]
    rfl

theorem Tx.bodyFold_concat (t : Tx) (p : List Byte) (x : Byte) :
    t.bodyFold (p ++ [x]) = ckstep (t.bodyFold p).1 (t.bodyFold p).2 x := by
  rw [Tx.bodyFold, checksumBody, ← List.append_assoc, foldBytes_concat]
  rfl

theorem Tx.inFrame_emit {t : Tx} {p : List Byte} (h : p.length < t.len.toNat) (x : Byte) :
    (t.inFrame p).emit x = .byte x (t.inFrame (p ++ [x])) := by
  have hphase : (t.inFrame p).phase = 7 := by simp [Tx.inFrame, bodyPhase, h.ne, Phase.code]
  rw [Tx.emit_payload hphase]
  simp [Tx.emitPayload, Tx.inFrame, Tx.goto, Tx.fold, ← bodyPhase_succ h, Tx.bodyFold_concat, BitVec.ofNat_add]

/-- In PAYLOAD the bytes emitted are the data of the steps. -/
theorem Tx.inFrame_emits {t : Tx} {p xs : List Byte} (h : p.length + xs.length ≤ t.len.toNat) :
    (t.inFrame p).Emits xs xs (t.inFrame (p ++ xs)) := by
  induction xs generalizing p with
  | nil => simpa using Tx.Emits.nil _
  | cons x xs ih =>
    rw [List.length_cons] at h
    have hmore : (p ++ [x]).length + xs.length ≤ t.len.toNat := by
      rw [List.length_append, List.length_singleton]
      omega
    have hrest := ih hmore
    rw [List.append_assoc, List.singleton_append] at hrest
    exact .cons (Tx.inFrame_emit (by omega) x) hrest

theorem Tx.inFrame_emits_checksum {t : Tx} {p xs : List Byte} (hp : p.length = t.len.toNat) (h : xs.length = 2) :
    (t.inFrame p).Emits xs [(t.bodyFold p).1, (t.bodyFold p).2] (t.atFrameEnd p) := by
  match xs, h with
  | [x, y], _ =>
    have hphase : (t.inFrame p).phase = 8 := by simp [Tx.inFrame, bodyPhase, hp, Phase.code]
    exact .cons (Tx.emit_ckLo hphase x) (.cons (Tx.emit_ckHi rfl y) (.nil _))

theorem Tx.start_emits_frame {t : Tx} {pre p post : List Byte} (hpre : pre.length = 7) (hp : p.length = t.len.toNat)
    (hpost : post.length = 2) :
    t.start.Emits (pre ++ p ++ post)
      ([0x4D, 0x45, lowByte t.len, highByte t.len, t.mtype, t.mclass, t.cmd] ++ p
        ++ [(t.bodyFold p).1, (t.bodyFold p).2])
      (t.atFrameEnd p) :=
  ((t.start_emits_header hpre).append (Tx.inFrame_emits (p := []) (by simp [hp]))).append
    (Tx.inFrame_emits_checksum hp hpost)

theorem TxFrame.len_toNat {f : TxFrame} (h : f.wellFormed = true) : f.len.toNat = f.payload.length := by
  have hle := TxFrame.payload_length_le h
  rw [TxFrame.len, BitVec.toNat_ofNat]
  omega

theorem Tx.withHeaderOf_atFrameEnd_sum (t : Tx) (f : TxFrame) :
    ((t.withHeaderOf f).atFrameEnd f.payload).sum = f.sum := rfl

/-- With the frame's header in its registers, TX emits `encode` of the frame (R187). -/
theorem Tx.withHeaderOf_emits_encodeFrame {f : TxFrame} {pre post : List Byte} (hf : f.wellFormed = true)
    (hpre : pre.length = 7) (hpost : post.length = 2) (t : Tx) :
    (t.withHeaderOf f).start.Emits (pre ++ f.payload ++ post) (encodeFrame f)
      ((t.withHeaderOf f).atFrameEnd f.payload) := by
  have hbytes := Tx.start_emits_frame (t := t.withHeaderOf f) hpre (TxFrame.len_toNat hf).symm hpost
  rw [encodeFrame, TxFrame.sum, lowByte_checksum, highByte_checksum]
  exact hbytes

/-- The commands that send a frame, run: six responses, then one for each wire byte, and TX as the frame leaves it. -/
theorem sendsFrame_runsOk {f : TxFrame} {is : List Instr} {s : State} (hf : f.wellFormed = true)
    (hidle : s.tx.busy = false) (hsends : SendsFrame f is) :
    ∃ t emitted, RunsOk is (List.replicate 6 (.ok 0) ++ emitted) s t ∧ emittedBytes emitted = encodeFrame f
      ∧ t.tx = (s.tx.withHeaderOf f).atFrameEnd f.payload := by
  obtain ⟨hdr, pre, post, hperm, hpre, hpost, rfl⟩ := hsends
  obtain ⟨u, hsetup, hstart⟩ := runsOk_setup hf hperm hidle
  have hemits := Tx.withHeaderOf_emits_encodeFrame hf hpre hpost s.tx
  rw [← hstart] at hemits
  obtain ⟨t, emitted, hrun, hbytes, htx⟩ := hemits.runsOk
  refine ⟨t, emitted, ?_, hbytes, htx⟩
  rw [← List.singleton_append, ← List.append_assoc]
  exact hsetup.append hrun

/-! ### The statements -/

/-- Settles O47: BUSY decides, and a TX_SET that is not refused writes what `Tx.writeHeader` says. -/
theorem txSetWritesOneByte : Obligations.TxSetWritesOneByte := by
  refine ⟨fun v => ⟨decode_encode (.txSetLenLo v), decode_encode (.txSetType v), decode_encode (.txSetClass v),
    decode_encode (.txSetCmd v), decode_encode (.txSetLenHi v)⟩, fun w => answeredIllegal_of_txSet, ?_, ?_⟩
  · exact fun i s hset hphase => txSet_refused hset (Tx.busy_iff.mpr hphase)
  · exact fun v s hphase => ⟨txSet_writes rfl hphase, txSet_writes rfl hphase, txSet_writes rfl hphase,
      txSet_writes rfl hphase, txSet_writes rfl hphase⟩

/-- Settles O48: BUSY and CODEOK decide, as `execTxGo_cases` says. -/
theorem txGoStartsAFrame : Obligations.TxGoStartsAFrame := by
  refine ⟨rfl, fun _ hop => answeredIllegal_of_noOperand (by simp [hop]), fun s hphase => ?_, fun s hheader => ?_,
    fun s hphase htype hclass => ?_⟩
  · exact txGo_refused (.inl (Tx.busy_iff.mpr hphase))
  · exact txGo_refused (.inr (s.tx.codeOk_eq.trans (decide_eq_false hheader)))
  · have hcode : s.tx.codeOk = true := s.tx.codeOk_eq.trans (decide_eq_true ⟨htype, hclass⟩)
    exact ⟨_, exec_txGo_of_idle (Tx.busy_eq_false_iff.mpr hphase) hcode, rfl, rfl, rfl, setTx_answer_returned s _ _⟩

/-- Settles O49: `Tx.wireByte` and `Tx.afterByte` hold the byte and each register as the statement writes them. -/
theorem txStepEmitsTheNextByte : Obligations.TxStepEmitsTheNextByte := by
  refine ⟨fun x => decode_encode (.txStep x), fun w hop hsel => ?_, fun x s hphase => ?_, fun x s hphase => ?_⟩
  · exact answeredIllegal_of_byteOperand (by simp [hop]) hsel
  · exact txStep_refused (Tx.emit_nothing hphase x)
  · exact ⟨_, exec_txStep (Tx.emit_eq_afterByte hphase x), rfl, rfl, rfl, rfl, rfl, rfl, rfl,
      s.tx.afterByte_a_toNat x, s.tx.afterByte_b_toNat x, rfl, setTx_answer_returned s _ _⟩

/-- Settles O55: the run of `sendsFrame_runsOk`, its responses split after the six of the setup. -/
theorem txRealisesEncode : Obligations.TxRealisesEncode := by
  intro f is s hf hphase hsends
  obtain ⟨t, emitted, hrun, hbytes, htx⟩ := sendsFrame_runsOk hf (Tx.busy_eq_false_of_idle_or_done hphase) hsends
  refine ⟨t, List.replicate 6 (.ok 0), emitted, hrun.run, ?_, List.length_replicate, ?_, hrun.ok, hbytes, ?_, ?_⟩
  · rw [hrun.responses, List.append_assoc]
  · rw [← encodeFrame_length, ← hbytes, emittedBytes, List.length_map]
  · rw [htx]
    rfl
  · rw [htx]
    exact Tx.withHeaderOf_atFrameEnd_sum s.tx f

/-- Settles O46: TX_RST is a command with no operand, and its answer is `exec_txRst`. -/
theorem txRstClearsTx : Obligations.TxRstClearsTx :=
  ⟨rfl, fun _ hop => answeredIllegal_of_noOperand (by simp [hop]),
    fun s => ⟨_, exec_txRst s, rfl, rfl, rfl, rfl, rfl, rfl, rfl, rfl, rfl, rfl, setTx_answer_returned s _ _⟩⟩

/-- Settles O51: each word is closed, a malformed one is refused by R97's clauses for TX_RD, and each read answers its
register. -/
theorem txRdReadsEachRegister : Obligations.TxRdReadsEachRegister := by
  refine ⟨⟨rfl, rfl, rfl, rfl, rfl, rfl, rfl⟩, fun w => answeredIllegal_of_txRead, fun s => ?_⟩
  simp only [← zext16_eq_append]
  exact ⟨readsAs_of_exec rfl, readsAs_of_exec rfl, readsAs_of_exec rfl, readsAs_of_exec rfl, readsAs_of_exec rfl,
    readsAs_of_exec rfl, readsAs_of_exec rfl⟩

end Sys2Proof.Machine
end

section
/-! PROOFS. 43_control.md: NOP (R220), the words answered ILLEGAL (R221), and the two round trips: decode of encode
(R222) and TX into RX (R223). -/

namespace Sys2Proof.Machine

/-! ### NOP and the reserved words (R220, R221) -/

theorem exec_nop (s : State) : exec .nop s = answerOk s 0x0000 := rfl

theorem exec_reserved (low : BitVec 14) (s : State) : exec (.reserved low) s = .next (s.answer .illegal) := rfl

/-- Decoder and R97 agree (`encodesCommand_eq_legalWord`), so a word with no command is one of R97's. -/
theorem answeredIllegal_of_no_command {w : Word} (h : ¬ ∃ i, decode w = .ok i ∧ i.isCommand = true) :
    AnsweredIllegal w := by
  apply answeredIllegal_of_legalWord_eq_false
  rwa [← encodesCommand_eq_legalWord, ← Bool.not_eq_true, encodesCommand_iff]

theorem answeredIllegal_of_reserved_op {w : Word} (hop : 0xC ≤ (opField w).toNat) : AnsweredIllegal w :=
  answeredIllegal_of_illegalFields (illegalFields_reserved hop _ _)

/-! ### The wire bytes of a well-formed frame (R180, R181) -/

theorem TxFrame.codes_ok {f : TxFrame} (h : f.wellFormed = true) :
    typeOk f.mtype = true ∧ classOk f.mclass = true := by
  simp only [TxFrame.wellFormed, Bool.and_eq_true] at h
  exact h.left

/-- The wire bytes are a header, the payload and the two checksum bytes, low byte first. -/
theorem encodeFrame_eq_withHeader (f : TxFrame) :
    encodeFrame f =
      withHeader (lowByte f.len) (highByte f.len) f.mtype f.mclass f.cmd
        (f.payload ++ [lowByte f.sum, highByte f.sum]) := rfl

/-- The length field of the wire bytes is the payload's length: the low byte comes first on the wire. -/
theorem TxFrame.payload_length_eq {f : TxFrame} (h : f.wellFormed = true) :
    f.payload.length = (pack (highByte f.len) (lowByte f.len)).toNat := by
  rw [pack_high_low, TxFrame.len_toNat h]

/-- Each of decode's checks passes on the wire bytes of a well-formed frame. -/
theorem decodeFrame_encodeFrame {f : TxFrame} (h : f.wellFormed = true) :
    decodeFrame (encodeFrame f) =
      .frame
        { length := f.len, mtype := f.mtype, mclass := f.mclass, cmd := f.cmd,
          commandKnown := known f.mclass f.cmd, payload := f.payload, checksum := f.sum }
        (9 + f.payload.length) := by
  obtain ⟨htype, hclass⟩ := TxFrame.codes_ok h
  have hcodes : ¬ (!typeOk f.mtype || !classOk f.mclass) = true := by simp [htype, hclass]
  have hsum : ¬ f.sum ≠ checksum ([f.mtype, f.mclass, f.cmd] ++ f.payload) := not_not_intro rfl
  rw [encodeFrame_eq_withHeader, decodeFrame_whole (TxFrame.payload_length_eq h), if_neg hcodes, pack_high_low f.sum,
    if_neg hsum, ← TxFrame.payload_length_eq h, pack_high_low]
  rfl

/-! ### RX, given the wire bytes of a frame (R144, R223) -/

theorem Rx.pushAll_encodeFrame {f : TxFrame} (h : f.wellFormed = true) :
    Rx.reset.pushAll (encodeFrame f) = some (Rx.atFrameEnd f.len f.mtype f.mclass f.cmd f.payload f.sum) := by
  have hwhole := Rx.pushAll_withHeader <| Rx.inFrame_pushAll_whole (TxFrame.payload_length_eq h) f.mtype f.mclass
    f.cmd (lowByte f.sum) (highByte f.sum) []
  rw [pack_high_low, pack_high_low] at hwhole
  exact hwhole

/-- Its codes are codes and its checksum is the one of its body, so a well-formed frame sets no flag of ERR. -/
theorem Rx.atFrameEnd_err {f : TxFrame} (h : f.wellFormed = true) :
    (Rx.atFrameEnd f.len f.mtype f.mclass f.cmd f.payload f.sum).err = false := by
  obtain ⟨htype, hclass⟩ := TxFrame.codes_ok h
  have hsum : (f.sum != checksum ([f.mtype, f.mclass, f.cmd] ++ f.payload)) = false := bne_self_eq_false f.sum
  simp only [Rx.err, Rx.atFrameEnd, Rx.inFrame, htype, hclass, hsum]
  rfl

/-- A run of commands none of which is addressed to TX leaves TX as it is (20_memory.md R74). -/
theorem execAll_tx_frame {is : List Instr} {s t : State} (hunit : ∀ i ∈ is, i.unit ≠ some .tx)
    (h : execAll is s = .next t) : t.tx = s.tx := by
  induction is generalizing s with
  | nil =>
    cases h
    rfl
  | cons i is ih =>
    obtain ⟨hi, his⟩ := List.forall_mem_cons.mp hunit
    cases hexec : exec i s with
    | next u =>
      rw [execAll_cons_next hexec] at h
      obtain ⟨-, -, htx⟩ := exec_other_units hexec
      exact (ih his h).trans (htx hi)
    | fault r => simp [execAll, hexec] at h
    | refused r => simp [execAll, hexec] at h

/-- RX_RST and the wire bytes of a frame, pushed: RX as the frame leaves it, and TX untouched. -/
theorem execAll_rxRst_encodeFrame {f : TxFrame} (h : f.wellFormed = true) (s : State) :
    ∃ u, execAll (.rxRst :: (encodeFrame f).map .rxPush) s = .next u
      ∧ u.rx = Rx.atFrameEnd f.len f.mtype f.mclass f.cmd f.payload f.sum ∧ u.tx = s.tx := by
  obtain ⟨u, hrun, hrx⟩ := execAll_rxRst_rxPush (Rx.pushAll_encodeFrame h) s
  exact ⟨u, hrun, hrx, execAll_tx_frame (by simp [Instr.unit]) hrun⟩

/-! ### The statements -/

/-- Settles O57: TX emits `encode` of the frame (`sendsFrame_runsOk`), RX takes it (`execAll_rxRst_encodeFrame`), and
the two units then hold the same header, checksum and count. -/
theorem unitRoundTrip : Obligations.UnitRoundTrip := by
  intro f is s hf hphase hsends
  obtain ⟨t, emitted, hsend, hbytes, htx⟩ := sendsFrame_runsOk hf (Tx.busy_eq_false_of_idle_or_done hphase) hsends
  obtain ⟨u, hpush, hrx, hkept⟩ := execAll_rxRst_encodeFrame hf t
  have hlen : emitted.length = 9 + f.payload.length := by
    rw [← encodeFrame_length, ← hbytes, emittedBytes, List.length_map]
  refine ⟨t, u, List.replicate 6 (.ok 0), emitted, hsend.run, ?_, List.length_replicate, hlen, hbytes ▸ hpush, ?_⟩
  · rw [hsend.responses, List.append_assoc]
  · rw [hkept, htx, hrx]
    exact ⟨rfl, Rx.atFrameEnd_err hf, rfl, rfl, rfl, rfl, rfl, rfl, rfl, rfl, rfl, rfl⟩

/-- Settles O18: R97's words by `answeredIllegal_of_no_command`, and the reserved ones by their `op` and as
instructions. -/
theorem illegalWordsHaveNoEffect : Obligations.IllegalWordsHaveNoEffect :=
  ⟨fun _ => answeredIllegal_of_no_command, fun _ => answeredIllegal_of_reserved_op,
    fun low s => ⟨_, exec_reserved low s, answer_sameBlock s _, answer_returned s _⟩⟩

/-- Settles O56: `decodeFrame_encodeFrame`, which asks nothing of the command. -/
theorem frameRoundTrip : Obligations.FrameRoundTrip := fun _ => decodeFrame_encodeFrame

/-- Settles O28: NOP is a command with no operand, and its answer is `exec_nop`. -/
theorem nopDoesNothing : Obligations.NopDoesNothing :=
  ⟨rfl, fun _ hop => answeredIllegal_of_noOperand (by simp [hop]), fun s => readsAs_of_exec (exec_nop s)⟩

end Sys2Proof.Machine
end

section
/-! PROOFS. 60_exceptions.md: a step always answers (R230), what is refused (R232), what RX's flags say of its registers
(R234, R241) and that they are sticky (R242), which command a step runs (R233), and the idle block (R249). -/

namespace Sys2Proof.Machine

/-! ### What is on the port (R233, R249) -/

theorem onPort_iff {s : State} {w : Word} : OnPort s w ↔ ∃ rest, s.port.events = .command w :: rest :=
  List.head?_eq_some_iff

/-- Of the four things a step can do (`step_cases`), an empty port leaves one. -/
theorem step_of_idle {s : State} (hidle : s.port.events = []) : step s = .next s := by
  rcases step_cases s with ⟨-, hstep⟩ | ⟨_, hport, -⟩ | ⟨_, _, _, hport, -⟩ | ⟨_, _, _, hport, -⟩
  · exact hstep
  all_goals cases hidle.symm.trans hport

/-! ### RX's flags and its registers (R234, R241) -/

/-- Until the type byte is consumed, a frame with the right magic has set no flag. -/
theorem Rx.flagsAgree_early {r : Rx} (hphase : r.phase.toNat ≤ 4) :
    r.FlagsAgree ↔ r.magerr = false ∧ r.typerr = false ∧ r.clserr = false ∧ r.cmdunk = false ∧ r.ckerr = false
      ∧ r.ovr = false := by
  have hbelow (n : Nat) (hn : 4 < n) : ¬ n ≤ r.phase.toNat := by omega
  have hne (n : Nat) (hn : 4 < n) : r.phase.toNat ≠ n := by omega
  simp [Rx.FlagsAgree, hbelow, hne]

/-- Between the command byte and the last checksum byte the type, class and command flags tell the truth and the others
are clear. -/
theorem Rx.flagsAgree_in_body {r : Rx} (hfrom : 7 ≤ r.phase.toNat) (hto : r.phase.toNat ≤ 9) :
    r.FlagsAgree ↔ r.magerr = false ∧ r.typerr = !typeOk r.mtype ∧ r.clserr = !classOk r.mclass
      ∧ r.cmdunk = !known r.mclass r.cmd ∧ r.ckerr = false ∧ r.ovr = false := by
  have hreached (n : Nat) (hn : n ≤ 7) : n ≤ r.phase.toNat := by omega
  have hto' : r.phase.toNat ≤ 10 := by omega
  have hbelow : ¬ 10 ≤ r.phase.toNat := by omega
  have hne (n : Nat) (hn : 9 < n) : r.phase.toNat ≠ n := by omega
  simp [Rx.FlagsAgree, hreached, hto', hbelow, hne]

/-- A wrong magic byte sets MAGERR and enters ERROR at once; the right one touches no flag. -/
theorem Rx.magic_flagsAgree {r : Rx} {want : Byte} {next : Phase} (h : r.FlagsAgree) (hphase : r.phase.toNat ≤ 1)
    (hnext : next.code.toNat ≤ 4) (x : Byte) : (r.magic want next x).FlagsAgree := by
  have hclear := (Rx.flagsAgree_early (by omega)).mp h
  rw [Rx.magic_eq]
  by_cases hx : x = want
  · exact (Rx.flagsAgree_early (by simpa [hx] using hnext)).mpr (by simpa [hx] using hclear)
  · obtain ⟨-, htype, hclass, hcmd, hck, hovr⟩ := hclear
    simp [Rx.FlagsAgree, hx, Phase.code, htype, hclass, hcmd, hck, hovr]

theorem Rx.takeType_flagsAgree {r : Rx} (h : r.FlagsAgree) (hphase : r.phase = 4) (x : Byte) :
    (r.takeType x).FlagsAgree := by
  obtain ⟨hmag, htype, hclass, hcmd, hck, hovr⟩ := (Rx.flagsAgree_early (by simp [hphase])).mp h
  simp [Rx.FlagsAgree, Rx.takeType, Phase.code, hmag, htype, hclass, hcmd, hck, hovr]

theorem Rx.takeClass_flagsAgree {r : Rx} (h : r.FlagsAgree) (hphase : r.phase = 5) (x : Byte) :
    (r.takeClass x).FlagsAgree := by
  obtain ⟨hmag, htype, hclass, hcmd, hck, hovr⟩ : r.magerr = false ∧ r.typerr = !typeOk r.mtype ∧ r.clserr = false
      ∧ r.cmdunk = false ∧ r.ckerr = false ∧ r.ovr = false := by simpa [Rx.FlagsAgree, hphase] using h
  simp [Rx.FlagsAgree, Rx.takeClass, Phase.code, hmag, htype, hclass, hcmd, hck, hovr]

theorem Rx.takeCmd_flagsAgree {r : Rx} (h : r.FlagsAgree) (hphase : r.phase = 6) (x : Byte) :
    (r.takeCmd x).FlagsAgree := by
  obtain ⟨hmag, htype, hclass, hcmd, hck, hovr⟩ : r.magerr = false ∧ r.typerr = !typeOk r.mtype
      ∧ r.clserr = !classOk r.mclass ∧ r.cmdunk = false ∧ r.ckerr = false ∧ r.ovr = false := by
    simpa [Rx.FlagsAgree, hphase] using h
  apply (Rx.flagsAgree_in_body _ _).mpr
  · simp [Rx.takeCmd, hmag, htype, hclass, hcmd, hck, hovr]
  all_goals
    rw [Rx.takeCmd, Rx.goto_phase, code_ckLo_or_payload]
    split <;> decide

theorem Rx.takePayload_flagsAgree {r : Rx} (h : r.FlagsAgree) (hphase : r.phase = 7) (x : Byte) :
    (r.takePayload x).FlagsAgree := by
  have hbody := (Rx.flagsAgree_in_body (by simp [hphase]) (by simp [hphase])).mp h
  apply (Rx.flagsAgree_in_body _ _).mpr
  · exact hbody
  all_goals
    rw [Rx.takePayload, Rx.goto_phase, code_ckLo_or_payload]
    split <;> decide

/-- CKERR is computed from the wire checksum this byte completes and the one RX recomputed, which the byte is no part
of. -/
theorem Rx.takeCkHi_flagsAgree {r : Rx} (h : r.FlagsAgree) (hphase : r.phase = 9) (x : Byte) :
    (r.takeCkHi x).FlagsAgree := by
  obtain ⟨hmag, htype, hclass, hcmd, hck, hovr⟩ :=
    (Rx.flagsAgree_in_body (by simp [hphase]) (by simp [hphase])).mp h
  simp [Rx.FlagsAgree, Rx.takeCkHi, Rx.sum, withHigh, Phase.code, hmag, htype, hclass, hcmd, hck, hovr, bne,
    Bool.beq_eq_decide_eq]

theorem Rx.push_keeps_flagsAgree {r r' : Rx} {x : Byte} (h : r.push x = some r') (hflags : r.FlagsAgree) :
    r'.FlagsAgree := by
  have hearly (hle : r.phase.toNat ≤ 4) := (Rx.flagsAgree_early hle).mp hflags
  have hbody (hfrom : 7 ≤ r.phase.toNat) (hto : r.phase.toNat ≤ 9) := (Rx.flagsAgree_in_body hfrom hto).mp hflags
  rcases Rx.push_cases h with ⟨hp, rfl⟩ | ⟨hp, rfl⟩ | ⟨hp, rfl⟩ | ⟨hp, rfl⟩ | ⟨hp, rfl⟩ | ⟨hp, rfl⟩ | ⟨hp, rfl⟩
    | ⟨hp, rfl⟩ | ⟨hp, rfl⟩ | ⟨hp, rfl⟩ | ⟨hp, rfl⟩
  · exact Rx.magic_flagsAgree hflags (by simp [hp]) (by decide) x
  · exact Rx.magic_flagsAgree hflags (by simp [hp]) (by decide) x
  · exact (Rx.flagsAgree_early (by simp [Phase.code])).mpr (hearly (by simp [hp]))
  · exact (Rx.flagsAgree_early (by simp [Phase.code])).mpr (hearly (by simp [hp]))
  · exact Rx.takeType_flagsAgree hflags hp x
  · exact Rx.takeClass_flagsAgree hflags hp x
  · exact Rx.takeCmd_flagsAgree hflags hp x
  · exact Rx.takePayload_flagsAgree hflags hp x
  · exact (Rx.flagsAgree_in_body (by simp [Phase.code]) (by simp [Phase.code])).mpr
      (hbody (by simp [hp]) (by simp [hp]))
  · exact Rx.takeCkHi_flagsAgree hflags hp x
  · obtain ⟨hmag, htype, hclass, hcmd, hck, -⟩ := hflags
    exact ⟨hmag, htype, hclass, hcmd, hck, fun _ => by rcases hp with hp | hp <;> simp [hp]⟩

theorem Rx.reset_flagsAgree : Rx.reset.FlagsAgree := resetHasInvariants.right

theorem Rx.Change.keeps_flagsAgree {r r' : Rx} {i : Instr} (h : r.Change i r') (hflags : r.FlagsAgree) :
    r'.FlagsAgree := by
  cases h with
  | reset => exact Rx.reset_flagsAgree
  | push hpush => exact Rx.push_keeps_flagsAgree hpush hflags

/-! ### RX's flags are sticky (R242) -/

/-- A flag after a byte is the flag before it or-ed with the byte's test (`Rx.afterByte`). -/
theorem Rx.push_flags_sticky {r r' : Rx} {x : Byte} (h : r.push x = some r') :
    (r.magerr = true → r'.magerr = true) ∧ (r.typerr = true → r'.typerr = true)
      ∧ (r.clserr = true → r'.clserr = true) ∧ (r.cmdunk = true → r'.cmdunk = true)
      ∧ (r.ckerr = true → r'.ckerr = true) ∧ (r.ovr = true → r'.ovr = true) := by
  rw [Rx.eq_afterByte h]
  exact ⟨Bool.or_inl, Bool.or_inl, Bool.or_inl, Bool.or_inl, Bool.or_inl, Bool.or_inl⟩

/-! ### Every command answers (R230) -/

theorem rxPush_answers {s : State} (hphase : s.rx.phase.toNat ≤ 11) (x : Byte) :
    ∃ t, exec (.rxPush x) s = .next t :=
  ⟨_, exec_rxPush (Rx.push_eq_afterByte hphase x)⟩

theorem txStep_answers {s : State} (hphase : s.tx.phase.toNat ≤ 10 ∨ s.tx.phase.toNat = 12) (x : Byte) :
    ∃ t, exec (.txStep x) s = .next t := by
  rcases (by bv_omega : s.tx.phase.toNat ≤ 9 ∨ s.tx.phase = 10 ∨ s.tx.phase = 12) with hbusy | hidle
  · exact ⟨_, exec_txStep (Tx.emit_eq_afterByte hbusy x)⟩
  · exact (txStep_refused (Tx.emit_nothing hidle x)).imp fun _ ⟨hout, _⟩ => hout

theorem txSet_answers {i : Instr} (hset : i.isTxSet = true) (s : State) : ∃ t, exec i s = .next t := by
  cases hbusy : s.tx.busy with
  | true => exact (txSet_refused hset hbusy).imp fun _ ⟨hout, _⟩ => hout
  | false => exact ⟨_, exec_txSet_of_idle hset hbusy⟩

/-- Only the two commands that read a phase can find one that is never held. -/
theorem exec_answers {s : State} (hinv : Inv s) (i : Instr) : ∃ t, exec i s = .next t := by
  obtain ⟨-, ⟨-, -, hrx, -⟩, -, -, htx, -⟩ := hinv
  cases i with
  | rxPush x => exact rxPush_answers hrx x
  | txStep x => exact txStep_answers htx x
  | txGo =>
    rcases execTxGo_cases s with ⟨-, hout⟩ | ⟨-, -, hout⟩
    · exact ⟨_, hout⟩
    · exact ⟨_, hout⟩
  | txSetLenLo | txSetType | txSetClass | txSetCmd | txSetLenHi => exact txSet_answers rfl s
  | _ => exact ⟨_, rfl⟩

theorem step_answers {s : State} (hinv : Inv s) : ∃ t, step s = .next t := by
  rcases step_cases s with ⟨-, hstep⟩ | ⟨_, -, hstep⟩ | ⟨_, _, i, -, -, hstep⟩ | ⟨_, _, _, -, -, hstep⟩
  · exact ⟨_, hstep⟩
  · exact ⟨_, hstep⟩
  · exact hstep ▸ exec_answers hinv i
  · exact ⟨_, hstep⟩

/-! ### What is refused (R232) -/

/-- R232's list: the commands that TX, as it is, does not permit. -/
inductive Tx.Refuses (t : Tx) : Instr → Prop
  | set {i : Instr} (hset : i.isTxSet = true) (hbusy : t.busy = true) : t.Refuses i
  | goBusy (hbusy : t.busy = true) : t.Refuses .txGo
  | goHeader (hcode : t.codeOk = false) : t.Refuses .txGo
  | step {x : Byte} (hphase : t.phase = 12 ∨ t.phase = 10) : t.Refuses (.txStep x)

theorem Tx.codeOk_eq_false_iff {t : Tx} :
    t.codeOk = false ↔ (t.mtype ≠ 0x00 ∧ t.mtype ≠ 0x0F) ∨ 0x08 < t.mclass.toNat := by
  rw [Tx.codeOk_eq, decide_eq_false_iff_not, not_and_or, not_or, not_le]

theorem Tx.refuses_iff {t : Tx} {i : Instr} :
    t.Refuses i ↔
      (i.isTxSet = true ∧ t.phase.toNat ≤ 9)
        ∨ (i = .txGo ∧ t.phase.toNat ≤ 9)
        ∨ (i = .txGo ∧ ((t.mtype ≠ 0x00 ∧ t.mtype ≠ 0x0F) ∨ 0x08 < t.mclass.toNat))
        ∨ ((∃ x, i = .txStep x) ∧ (t.phase = 12 ∨ t.phase = 10)) := by
  constructor
  · intro h
    cases h with
    | set hset hbusy => exact .inl ⟨hset, Tx.busy_iff.mp hbusy⟩
    | goBusy hbusy => exact .inr (.inl ⟨rfl, Tx.busy_iff.mp hbusy⟩)
    | goHeader hcode => exact .inr (.inr (.inl ⟨rfl, Tx.codeOk_eq_false_iff.mp hcode⟩))
    | step hphase => exact .inr (.inr (.inr ⟨⟨_, rfl⟩, hphase⟩))
  · rintro (⟨hset, hbusy⟩ | ⟨rfl, hbusy⟩ | ⟨rfl, hheader⟩ | ⟨⟨x, rfl⟩, hphase⟩)
    · exact .set hset (Tx.busy_iff.mpr hbusy)
    · exact .goBusy (Tx.busy_iff.mpr hbusy)
    · exact .goHeader (Tx.codeOk_eq_false_iff.mpr hheader)
    · exact .step hphase

theorem Tx.idle_or_done_of_emit_nothing {t : Tx} {x : Byte} (h : t.emit x = .nothing) :
    t.phase = 12 ∨ t.phase = 10 := by
  rcases t.emit_cases x with ⟨-, he⟩ | ⟨-, he⟩ | ⟨-, he⟩ | ⟨-, he⟩ | ⟨-, he⟩ | ⟨-, he⟩ | ⟨-, he⟩ | ⟨-, he⟩
    | ⟨-, he⟩ | ⟨-, he⟩ | ⟨hp, -⟩ | ⟨-, he⟩
  iterate 10
    · cases he.symm.trans h
  · exact hp.symm
  · cases he.symm.trans h

theorem answeredRefused_of_refuses {i : Instr} {s : State} (h : s.tx.Refuses i) : AnsweredRefused i s := by
  cases h with
  | set hset hbusy => exact txSet_refused hset hbusy
  | goBusy hbusy => exact txGo_refused (.inl hbusy)
  | goHeader hcode => exact txGo_refused (.inr hcode)
  | step hphase => exact txStep_refused (Tx.emit_nothing hphase.symm _)

theorem not_refused_of_answerOk {s u t : State} {v : Word} {r : Response} (h : answerOk u v = .next t)
    (hport : u.port = s.port) (hret : Returned s t r) : r.st ≠ .refused := by
  rw [answerOk_next.mp h] at hret
  obtain rfl := returned_unique hret (show Returned s _ (.ok v) by simp [Returned, hport])
  exact CmdStatus.noConfusion

/-- A command answered REFUSED is one of R232's list: every other outcome answers OK or ILLEGAL. -/
theorem refuses_of_refused {i : Instr} {s t : State} {r : Response} (h : exec i s = .next t)
    (hret : Returned s t r) (hst : r.st = .refused) : s.tx.Refuses i := by
  have hok {u : State} {v : Word} (hout : answerOk u v = .next t) (hport : u.port = s.port) : s.tx.Refuses i :=
    absurd hst (not_refused_of_answerOk hout hport hret)
  cases i with
  | reserved low =>
    cases (exec_reserved low s).symm.trans h
    obtain rfl := returned_unique hret (answer_returned s _)
    cases hst
  | rxPush x =>
    rcases execRxPush_cases x s with ⟨r, -, hout⟩ | ⟨-, hout⟩
    · exact hok (hout.symm.trans h) rfl
    · cases hout.symm.trans h
  | txSetLenLo | txSetType | txSetClass | txSetCmd | txSetLenHi =>
    cases hbusy : s.tx.busy with
    | true => exact .set rfl hbusy
    | false => exact hok ((exec_txSet_of_idle rfl hbusy).symm.trans h) rfl
  | txGo =>
    rcases execTxGo_cases s with ⟨hbusy | hcode, -⟩ | ⟨-, -, hout⟩
    · exact .goBusy hbusy
    · exact .goHeader hcode
    · exact hok (hout.symm.trans h) rfl
  | txStep x =>
    rcases execTxStep_cases x s with ⟨b, u, -, hout⟩ | ⟨hnothing, -⟩ | ⟨-, hout⟩
    · exact hok (hout.symm.trans h) rfl
    · exact .step (Tx.idle_or_done_of_emit_nothing hnothing)
    · cases hout.symm.trans h
  | _ => exact hok h rfl

/-! ### The statements -/

/-- Settles O6: at reset no flag is set, and a byte keeps the flags true phase by phase. -/
theorem stepKeepsRxFlagsTrue : Obligations.StepKeepsRxFlagsTrue := fun _ _ hflags hstep =>
  step_rx (P := Rx.FlagsAgree) hstep hflags Rx.reset_flagsAgree fun _ _ hchange => hchange.keeps_flagsAgree hflags

/-- Settles O8: the step answers (`step_answers`), and keeps `Inv` as every step does. -/
theorem stepNeverStops : Obligations.StepNeverStops := by
  intro s hinv
  obtain ⟨t, hstep⟩ := step_answers hinv
  exact ⟨t, hstep, stepKeepsRanges s t hinv hstep⟩

/-- Settles O20: the list is `Tx.Refuses`; what is on it is answered REFUSED with no effect, and nothing else is. -/
theorem refusedExactlyWhen : Obligations.RefusedExactlyWhen := by
  intro i s t r hexec hret
  have hanswer (hrefuses : s.tx.Refuses i) : r = .refused ∧ SameBlock s t := by
    obtain ⟨u, hexec', hsame, hret'⟩ := answeredRefused_of_refuses hrefuses
    cases hexec'.symm.trans hexec
    exact ⟨returned_unique hret hret', hsame⟩
  rw [← Tx.refuses_iff]
  refine ⟨⟨refuses_of_refused hexec hret, fun hrefuses => ?_⟩, fun hst => ?_⟩
  · obtain ⟨rfl, -⟩ := hanswer hrefuses
    rfl
  · obtain ⟨rfl, hsame⟩ := hanswer (refuses_of_refused hexec hret hst)
    exact ⟨rfl, hsame⟩

/-- Settles O23: of the commands only RX_RST and RX_PUSH write RX, and RX_PUSH clears no flag. -/
theorem rxFlagsAreSticky : Obligations.RxFlagsAreSticky := by
  refine ⟨fun i s t hrst hexec => ?_, fun s => ⟨_, exec_rxRst s, ?_⟩⟩
  · rcases exec_rx hexec with hkept | hchange
    · simp [hkept]
    · obtain ⟨x, rfl⟩ := hchange.instr.resolve_left hrst
      exact Rx.push_flags_sticky hchange.push_eq
  · exact ⟨rfl, rfl, rfl, rfl, rfl, rfl, rfl, rfl, rfl, rfl, rfl⟩

/-- Settles O10: a word at the head of the port that decodes is the command the step runs. -/
theorem stepRunsTheDecodedInstruction : Obligations.StepRunsTheDecodedInstruction := by
  intro s w i hport hdec
  obtain ⟨rest, hevents⟩ := onPort_iff.mp hport
  exact step_eq_exec_of_command hevents hdec

/-- Settles O12: with no event the step is the idle one (`step_of_idle`). -/
theorem idleBlockHoldsItsState : Obligations.IdleBlockHoldsItsState := fun _ => step_of_idle

end Sys2Proof.Machine
end

section
/-! PROOFS. 70_reset_and_hazards.md: the reset event (R260), what the host reads after it (R261), and how many TX_STEPs a
frame takes (R268). -/

namespace Sys2Proof.Machine

/-! ### The reset event at the head of the port (R260) -/

/-- Of the four things a step can do (`step_cases`), the reset event leaves one. -/
theorem step_of_reset {s : State} (hport : s.port.events.head? = some .reset) : step s = .next s.resetEvent := by
  obtain ⟨rest, hevents⟩ := List.head?_eq_some_iff.mp hport
  rcases step_cases s with ⟨hidle, -⟩ | ⟨_, -, hstep⟩ | ⟨_, _, _, hcmd, -⟩ | ⟨_, _, _, hcmd, -⟩
  · cases hevents.symm.trans hidle
  · exact hstep
  · cases hevents.symm.trans hcmd
  · cases hevents.symm.trans hcmd

/-! ### The steps of a frame (R268) -/

/-- A TX_GO after which an idle TX is at the frame's first byte was not refused: it started the frame. -/
theorem txGo_started {s g : State} (h : exec .txGo s = .next g) (hstarted : g.tx.phase = 0)
    (hidle : 9 < s.tx.phase.toNat) : g.tx = s.tx.start := by
  rcases execTxGo_cases s with ⟨-, hout⟩ | ⟨-, -, hout⟩
  · cases hout.symm.trans h
    have hzero : s.tx.phase = 0 := hstarted
    simp [hzero] at hidle
  · cases hout.symm.trans h
    rfl

/-- Steps that run together run first part first. -/
theorem Tx.Emits.of_append {t t' : Tx} {xs ys bs : List Byte} (h : t.Emits (xs ++ ys) bs t') :
    ∃ u cs ds, t.Emits xs cs u ∧ u.Emits ys ds t' := by
  induction xs generalizing t bs with
  | nil => exact ⟨t, [], bs, .nil t, h⟩
  | cons x xs ih =>
    cases h with
    | cons hemit hrest =>
      obtain ⟨u, cs, ds, hfirst, hsecond⟩ := ih hrest
      exact ⟨u, _, ds, .cons hemit hfirst, hsecond⟩

/-- TX that emits a byte is busy. -/
theorem Tx.Emits.busy {t t' : Tx} {xs bs : List Byte} (h : t.Emits xs bs t') (hmore : xs ≠ []) : t.busy = true := by
  cases h with
  | nil => exact absurd rfl hmore
  | cons hemit _ =>
    obtain ⟨hbusy, -⟩ := Tx.emit_byte hemit
    exact hbusy

/-- `Tx.start_emits_frame`, with the steps' data as one list: `9 + L` steps are a whole frame. -/
theorem Tx.start_emits_whole {t : Tx} {xs : List Byte} (h : xs.length = 9 + t.len.toNat) :
    ∃ bs t', t.start.Emits xs bs t' ∧ t'.phase = 10 := by
  have hsplit : xs.take 7 ++ (xs.drop 7).take t.len.toNat ++ (xs.drop 7).drop t.len.toNat = xs := by simp
  have hframe := Tx.start_emits_frame (t := t) (pre := xs.take 7) (p := (xs.drop 7).take t.len.toNat)
    (post := (xs.drop 7).drop t.len.toNat) (by simp; omega) (by simp; omega) (by simp; omega)
  rw [hsplit] at hframe
  exact ⟨_, _, hframe, rfl⟩

/-- A started frame that gets no more than its `9 + L` steps is emitting as long as steps of it are left, and in DONE
after the last. -/
theorem Tx.start_emits_within {t : Tx} {xs : List Byte} (h : xs.length ≤ 9 + t.len.toNat) :
    ∃ bs u, t.start.Emits xs bs u
      ∧ (xs.length < 9 + t.len.toNat → u.busy = true) ∧ (xs.length = 9 + t.len.toNat → u.phase = 10) := by
  rcases h.lt_or_eq with hlt | heq
  · obtain ⟨_, _, hwhole, -⟩ := Tx.start_emits_whole (t := t)
      (xs := xs ++ List.replicate (9 + t.len.toNat - xs.length) 0) (by simp; omega)
    obtain ⟨u, cs, _, hfirst, hsecond⟩ := hwhole.of_append
    have hbusy : u.busy = true := hsecond.busy (by simp; omega)
    exact ⟨cs, u, hfirst, fun _ => hbusy, fun heq => absurd heq hlt.ne⟩
  · obtain ⟨bs, u, hwhole, hdone⟩ := Tx.start_emits_whole heq
    exact ⟨bs, u, hwhole, fun hlt => absurd heq hlt.ne, fun _ => hdone⟩

/-! ### The statements -/

/-- Settles O53: the steps of `Tx.start_emits_within`, run; BUSY and DONE decide what is refused after them. -/
theorem frameTakesNinePlusLengthSteps : Obligations.FrameTakesNinePlusLengthSteps := by
  intro xs s g hgo hstarted hidle hlen
  obtain ⟨bs, u, hemits, hwithin, hend⟩ := Tx.start_emits_within hlen
  rw [← txGo_started hgo hstarted hidle] at hemits
  obtain ⟨t, rs, hrun, -, rfl⟩ := hemits.runsOk
  refine ⟨t, hrun.run, fun hlt => ?_, fun heq => ?_⟩
  · have hbusy := hwithin hlt
    exact ⟨Tx.busy_iff.mp hbusy, txGo_refused (.inl hbusy), fun i hset => txSet_refused hset hbusy⟩
  · exact ⟨hend heq, fun x => txStep_refused (Tx.emit_nothing (.inl (hend heq)) x)⟩

/-- Settles O2: the step is the reset event (`step_of_reset`), which replaces every unit. -/
theorem resetEventResetsEveryUnit : Obligations.ResetEventResetsEveryUnit :=
  fun s hport => ⟨s.resetEvent, step_of_reset hport, rfl, rfl, rfl⟩

/-- Settles O3: each read answers its register or view, and at reset that has the value the rule writes. -/
theorem readsAfterReset : Obligations.ReadsAfterReset :=
  ⟨readsAs_of_exec rfl, readsAs_of_exec rfl, readsAs_of_exec rfl, readsAs_of_exec rfl, readsAs_of_exec rfl,
    readsAs_of_exec rfl, readsAs_of_exec rfl, readsAs_of_exec rfl⟩

end Sys2Proof.Machine
end
